-- ==== Sys2Proof/Word.lean ====
section
/-! DEFINITION. The widths of CRCF (spec/00_scope.md R8): byte, register word, command word, read address. -/

namespace Sys2Proof

/-- One byte of OUT, of a payload or of a chunk field (20_memory R63). -/
abbrev Byte := BitVec 8

/-- A 32-bit register, operand or read value (00_scope R8). -/
abbrev Word := BitVec 32

/-- A 64-bit command word of format F64 (30_encoding R90). -/
abbrev CmdWord := BitVec 64

/-- A 12-bit address of the register read space (20_memory R62). -/
abbrev RegAddr := BitVec 12

end Sys2Proof
end

