-- ==== Sys2Proof/Config.lean ====
section
/-! DEFINITION. What the spec leaves open: the free value of 70_reset_and_hazards R262 and the parameter of
20_memory R74. Neither has a body, so no proof can rest on a value of it. -/

namespace Sys2Proof

/-- Free value (assumption log 1): how many of the bytes still in flight have reached the consumer when the host cuts
their transfer for the n-th time, by asserting `rst` (70_reset_and_hazards R262(b): "The value j is not specified") or
by letting `out_ready` fall. -/
opaque Config.tornBytes : Nat → Nat

/-- Parameter `CRCF_BASE` (20_memory R74, log entry 15): where the integrating platform maps the ports. No rule of
the spec reads it, and no definition of the model does. -/
opaque Config.crcfBase : Nat

end Sys2Proof
end

