-- ==== Sys2Proof/Syntax.lean ====
section
/-! DEFINITION. The commands of CRCF: one constructor for each row of spec/opcode_table.json. -/

namespace Sys2Proof

/-- A command of one of the six assigned opcodes (30_encoding R95). `rsv` holds the row's must-be-zero bits, RSV and
the reserved bits of OPD together (R98; log entry 12): they are `w[55:0]` in form Z, `w[55:8]` in form B and
`w[55:32]` in forms L and T (R93). The other argument is the row's operand. -/
inductive Instr where
  /-- `crc.init`, form Z (40_crc R128). -/
  | crcInit (rsv : BitVec 56)
  /-- `crc.byte B`, form B (40_crc R129). -/
  | crcByte (rsv : BitVec 48) (b : Byte)
  /-- `frm.len L`, form L (41_framer R151). -/
  | frmLen (rsv : BitVec 24) (l : Word)
  /-- `frm.type T`, form T (41_framer R152). -/
  | frmType (rsv : BitVec 24) (t : Word)
  /-- `frm.byte B`, form B (41_framer R153). -/
  | frmByte (rsv : BitVec 48) (b : Byte)
  /-- `srst`, form Z (42_control R180). -/
  | srst (rsv : BitVec 56)
  deriving DecidableEq, Repr

end Sys2Proof
end

