-- ==== Sys2Proof/WellFormed.lean ====
section
/-! DEFINITION. Which commands are well-formed (30_encoding R92, R93, R95, R98). -/

namespace Sys2Proof

/-- A command is well-formed when every must-be-zero bit of its row is 0 (30_encoding R95, R98). -/
def Instr.WellFormed : Instr → Bool
  | .crcInit rsv => rsv == 0
  | .crcByte rsv _ => rsv == 0
  | .frmLen rsv _ => rsv == 0
  | .frmType rsv _ => rsv == 0
  | .frmByte rsv _ => rsv == 0
  | .srst rsv => rsv == 0

end Sys2Proof
end

