-- ==== Sys2Proof/Decode.lean ====
section
/-! DEFINITION. The encoding of commands (spec/30_encoding.md): the opcode map, the decoder on words and on byte
strings, and the encoder. -/

namespace Sys2Proof

/-! ## The opcode map (30_encoding R95) -/

/-- OPC of CRC_INIT. -/
def opcCrcInit : BitVec 8 := 0x01
/-- OPC of CRC_BYTE. -/
def opcCrcByte : BitVec 8 := 0x02
/-- OPC of FRM_LEN. -/
def opcFrmLen : BitVec 8 := 0x10
/-- OPC of FRM_TYPE. -/
def opcFrmType : BitVec 8 := 0x11
/-- OPC of FRM_BYTE. -/
def opcFrmByte : BitVec 8 := 0x12
/-- OPC of SRST. -/
def opcSrst : BitVec 8 := 0xFF

/-- The OPC field of a command (30_encoding R91). -/
def Instr.opcode : Instr → BitVec 8
  | .crcInit _ => opcCrcInit
  | .crcByte _ _ => opcCrcByte
  | .frmLen _ _ => opcFrmLen
  | .frmType _ _ => opcFrmType
  | .frmByte _ _ => opcFrmByte
  | .srst _ => opcSrst

/-! ## Words -/

/-- What a 64-bit word is (30_encoding R96): a command of an assigned opcode, or a word whose OPC is illegal (R97). -/
inductive WordDecode where
  | instr (i : Instr)
  | illegalOpc (opc : BitVec 8)
  deriving DecidableEq, Repr

/-- Decoding of a command word, total (30_encoding R90, R91, R93, R96). -/
def decodeWord (w : CmdWord) : WordDecode :=
  let opc := w.extractLsb' 56 8
  if opc = opcCrcInit then .instr (.crcInit (w.extractLsb' 0 56))
  else if opc = opcCrcByte then .instr (.crcByte (w.extractLsb' 8 48) (w.extractLsb' 0 8))
  else if opc = opcFrmLen then .instr (.frmLen (w.extractLsb' 32 24) (w.extractLsb' 0 32))
  else if opc = opcFrmType then .instr (.frmType (w.extractLsb' 32 24) (w.extractLsb' 0 32))
  else if opc = opcFrmByte then .instr (.frmByte (w.extractLsb' 8 48) (w.extractLsb' 0 8))
  else if opc = opcSrst then .instr (.srst (w.extractLsb' 0 56))
  else .illegalOpc opc

/-- The word of a command: OPC, then the must-be-zero bits, then the operand (30_encoding R90, R93, R102). -/
def encodeWord : Instr → CmdWord
  | .crcInit rsv => opcCrcInit ++ rsv
  | .crcByte rsv b => opcCrcByte ++ rsv ++ b
  | .frmLen rsv l => opcFrmLen ++ rsv ++ l
  | .frmType rsv t => opcFrmType ++ rsv ++ t
  | .frmByte rsv b => opcFrmByte ++ rsv ++ b
  | .srst rsv => opcSrst ++ rsv

/-! ## Byte strings (30_encoding R90: big-endian, most significant byte first) -/

/-- The eight bytes of a command word, `w[63:56]` first (30_encoding R90). -/
def wordBytes (w : CmdWord) : List Byte :=
  [w.extractLsb' 56 8, w.extractLsb' 48 8, w.extractLsb' 40 8, w.extractLsb' 32 8,
   w.extractLsb' 24 8, w.extractLsb' 16 8, w.extractLsb' 8 8, w.extractLsb' 0 8]

/-- What a byte string begins with: a command and the bytes after it, an illegal OPC, or fewer than eight bytes. -/
inductive BytesDecode where
  | instr (i : Instr) (rest : List Byte)
  | illegalOpc (opc : BitVec 8)
  | truncated
  deriving DecidableEq, Repr

/-- Decoding of a byte string, total: the first eight bytes are one command word (30_encoding R90, R100). -/
def decode : List Byte → BytesDecode
  | b7 :: b6 :: b5 :: b4 :: b3 :: b2 :: b1 :: b0 :: rest =>
    match decodeWord (b7 ++ b6 ++ b5 ++ b4 ++ b3 ++ b2 ++ b1 ++ b0) with
    | .instr i => .instr i rest
    | .illegalOpc opc => .illegalOpc opc
  | _ => .truncated

/-- The byte string of a command. -/
def encode (i : Instr) : List Byte := wordBytes (encodeWord i)

/-- The command word of the bits `w` of a table row of `nbits` bits, bit 0 its least significant bit; every bit above
`nbits` is 0 (log entry 21). -/
def tableWord (nbits w : Nat) : CmdWord := BitVec.ofNat 64 (w % 2 ^ nbits)

/-- The instruction the decoder reads from the bits `w` of a table row of `nbits` bits: the word is laid out
as its eight big-endian bytes (30_encoding R90) and decoded. -/
def decodeTableWord (nbits w : Nat) : Option Instr :=
  match decode (wordBytes (tableWord nbits w)) with
  | .instr i _ => some i
  | .illegalOpc _ => none
  | .truncated => none

/-! ## The table's rows (30_encoding R95) -/

/-- One row of the table of 30_encoding R95 (and of spec/opcode_table.json). -/
structure Row where
  mnemonic : String
  matchBits : CmdWord
  mask : CmdWord
  mustBeZero : CmdWord
  deriving DecidableEq, Repr

/-- The six rows, in the table's order. -/
def opcodeTable : List Row :=
  [⟨"CRC_INIT", 0x0100000000000000, 0xFF00000000000000, 0x00FFFFFFFFFFFFFF⟩,
   ⟨"CRC_BYTE", 0x0200000000000000, 0xFF00000000000000, 0x00FFFFFFFFFFFF00⟩,
   ⟨"FRM_LEN", 0x1000000000000000, 0xFF00000000000000, 0x00FFFFFF00000000⟩,
   ⟨"FRM_TYPE", 0x1100000000000000, 0xFF00000000000000, 0x00FFFFFF00000000⟩,
   ⟨"FRM_BYTE", 0x1200000000000000, 0xFF00000000000000, 0x00FFFFFFFFFFFF00⟩,
   ⟨"SRST", 0xFF00000000000000, 0xFF00000000000000, 0x00FFFFFFFFFFFFFF⟩]

/-- A word selects a row when `(w & mask) == match` (30_encoding R95). -/
def Row.selects (r : Row) (w : CmdWord) : Bool := w &&& r.mask == r.matchBits

/-- The row a word selects, if any (30_encoding R95, R96). -/
def rowOf (w : CmdWord) : Option Row := opcodeTable.find? (·.selects w)

/-- The mnemonic of a command, as spec/opcode_table.json spells it. -/
def Instr.mnemonic : Instr → String
  | .crcInit _ => "CRC_INIT"
  | .crcByte _ _ => "CRC_BYTE"
  | .frmLen _ _ => "FRM_LEN"
  | .frmType _ _ => "FRM_TYPE"
  | .frmByte _ _ => "FRM_BYTE"
  | .srst _ => "SRST"

end Sys2Proof
end

