-- ==== Sys2Proof/Machine/State.lean ====
section
/-! DEFINITION. The state of CRCF (spec/10_state.md) with the host's pins and moves (R47), the reasons a step stops,
and the state after reset (R46). -/

namespace Sys2Proof.Machine

/-- STATE, the framer's phase (10_state R33); all four codes are legal. -/
inductive Phase where
  /-- 0, IDLE: no chunk in progress. -/
  | idle
  /-- 1, LENSET: the length field has been emitted, FRM_TYPE is expected. -/
  | lenset
  /-- 2, PAYLOAD: COUNT payload bytes are expected. -/
  | payload
  /-- 3, ERROR: every word but a well-formed SRST is ignored. -/
  | error
  deriving DecidableEq, Repr

/-- The six errors (60_exceptions R221). -/
inductive BlockError where
  /-- 1, E_ILLEGAL_OPC. -/
  | illegalOpc
  /-- 2, E_RESERVED. -/
  | reserved
  /-- 3, E_CRC_BUSY. -/
  | crcBusy
  /-- 4, E_LEN_SEQ. -/
  | lenSeq
  /-- 5, E_TYPE_SEQ. -/
  | typeSeq
  /-- 6, E_BYTE_SEQ. -/
  | byteSeq
  deriving DecidableEq, Repr

/-- One move of the host (10_state R20, R47), the single agent outside CRCF. -/
inductive HostMove where
  /-- Present the word `w` on `cmd` and hold it until it is accepted (R22). -/
  | command (w : CmdWord)
  /-- Present the address `a` on `rd` (R23). -/
  | read (a : RegAddr)
  /-- Drive `rst` to `level` (R25). -/
  | rst (level : Bool)
  /-- Drive `out_ready` to `level` (R24). -/
  | outReady (level : Bool)
  /-- Take one offered byte: a pulse of `out_ready` (R24). -/
  | take
  deriving DecidableEq, Repr

/-- The state: the registers of 10_state R28, OUT (R27), the hidden state of R44, the levels the host drives, the
host's moves still to come (R40, R47), and three fields of the model's own (`answers`, `index`, `draws`). -/
structure State where
  /-- ACC, the raw CRC accumulator (10_state R29). -/
  acc : Word
  /-- LEN, the declared payload length (R30). -/
  len : Word
  /-- COUNT, the payload bytes still owed (R31). -/
  count : Word
  /-- TYPE, the operand of the last accepted FRM_TYPE (R32). -/
  type : Word
  /-- STATE (R33). -/
  phase : Phase
  /-- ERRCODE (R34). -/
  errcode : BitVec 4
  /-- ERROPC (R35). -/
  erropc : BitVec 8
  /-- OUT, every byte that has gone out since the model's start, oldest first (R27; log entry 5). -/
  out : List Byte
  /-- The bytes of the command in progress that the consumer has not taken yet, oldest first (R44). -/
  inFlight : List Byte
  /-- The level of `rst` (R25, 70_reset R260). -/
  rst : Bool
  /-- The level of `out_ready` (R24). -/
  outReady : Bool
  /-- The host's moves still to come, in its order (R40, R47; log entries 2 and 3). -/
  moves : List HostMove
  /-- The host's position in its program: how many words have been accepted (R40). -/
  index : Nat
  /-- The record of `rd`: every read answered, oldest first (R23; log entry 9). -/
  answers : List (RegAddr × Word)
  /-- How many free values of `Config.tornBytes` have been drawn (log entry 1). -/
  draws : Nat
  deriving DecidableEq, Repr

/-- Why a step can stop with a fault. -/
inductive Fault where
  /-- Raised by `step` (by no command's meaning) when bytes are in flight and no move of the host takes them: the hang
  of 70_reset_and_hazards R270, "no enabled transition until the consumer acts". Safe: CRCF never moves past it. -/
  | outputStalled
  deriving DecidableEq, Repr

/-- Why a step can be refused. -/
inductive Refusal where
  /-- Raised by an arm of `exec` for an instruction without a meaning; no arm of this model is such an arm. Safe. -/
  | notModelled (mnemonic : String)
  deriving DecidableEq, Repr

/-- The state after reset (10_state R46), with OUT empty, as at the model's start (95_test_vectors: "All program start
states are the reset state ... with OUT empty"), `rst` deasserted, the consumer ready (70_reset R266) and no program
presented (log entries 1, 2, 4, 8, 9, 10). -/
def State.reset : State where
  acc := 0xFFFFFFFF
  len := 0
  count := 0
  type := 0
  phase := .idle
  errcode := 0
  erropc := 0
  out := []
  inFlight := []
  rst := false
  outReady := true
  moves := []
  index := 0
  answers := []
  draws := 0

end Sys2Proof.Machine
end

