-- ==== Sys2Proof/Machine/Flags.lean ====
section
/-! DEFINITION. CRCF has no condition codes (spec/10_state.md R41). What a program sees of the status is computed here
from the registers: the codes of STATE and of the errors, STATUS (R36), `err` (R26), CRC_RESULT (R37), and the
handshake levels CRCF drives (R22, R24). -/

namespace Sys2Proof.Machine

/-- The two bits of STATE (10_state R33). -/
def phaseCode : Phase → BitVec 2
  | .idle => 0
  | .lenset => 1
  | .payload => 2
  | .error => 3

/-- The code of an error (60_exceptions R221). -/
def errorCode : BlockError → BitVec 4
  | .illegalOpc => 1
  | .reserved => 2
  | .crcBusy => 3
  | .lenSeq => 4
  | .typeSeq => 5
  | .byteSeq => 6

/-- STATUS (10_state R36): `zext_32(ERROPC) << 8 | zext_32(ERRCODE) << 4 | zext_32(STATE)`. -/
def statusView (s : State) : Word :=
  (s.erropc.setWidth 32 <<< 8) ||| (s.errcode.setWidth 32 <<< 4) ||| (phaseCode s.phase).setWidth 32

/-- CRC_RESULT (10_state R37): `ACC ^ 0xFFFFFFFF`. -/
def crcResultView (s : State) : Word := crcFinal s.acc

/-- `err` (10_state R26, 60_exceptions R228): the level that is 1 exactly while STATE = ERROR. -/
def errView (s : State) : Bool := s.phase == .error

/-- `cmd_ready` (10_state R22, 70_reset R260): no command is in progress and `rst` is not asserted. -/
def cmdReady (s : State) : Bool := s.inFlight.isEmpty && !s.rst

/-- `out_valid` (10_state R24): a byte is offered. -/
def outValid (s : State) : Bool := !s.inFlight.isEmpty

/-- The byte offered on `out` while `out_valid` is 1: the oldest not yet taken (10_state R24). -/
def outData (s : State) : Option Byte := s.inFlight.head?

end Sys2Proof.Machine
end

