-- ==== Sys2Proof/Machine/Operands.lean ====
section
/-! DEFINITION. Operands (spec/30_encoding.md R93, R94; spec/00_scope.md R13): the reserved-bit check of a form, and
the four bytes of a 32-bit operand. No operand is sign-extended, scaled or shifted (R94). -/

namespace Sys2Proof.Machine

/-- The check of the reserved bits of a command, whatever its form (30_encoding R92, R93, R98): all are 0. -/
def reservedClear {n : Nat} (rsv : BitVec n) : Bool := rsv == 0

/-- `be32(v)`, the big-endian bytes of a 32-bit value (00_scope R13, 20_memory R64). -/
def be32 (v : Word) : List Byte :=
  [v.extractLsb' 24 8, v.extractLsb' 16 8, v.extractLsb' 8 8, v.extractLsb' 0 8]

/-- `bytes4(T)`, the four type bytes, `T[31:24]` first (00_scope R13, 20_memory R66). -/
def bytes4 (t : Word) : List Byte := be32 t

end Sys2Proof.Machine
end

