-- ==== Sys2Proof/Machine/Ops.lean ====
section
/-! DEFINITION. The named operations on the state: emitting bytes (spec/00_scope.md R11, spec/10_state.md R27),
entering ERROR and leaving it (spec/60_exceptions.md R222, R227), the register reset (spec/10_state.md R46), folding a
byte into the CRC, FinishChunk (spec/41_framer.md R154), and the order of checks every command goes through (R224). -/

namespace Sys2Proof.Machine

/-! ## Emitting -/

/-- `Emit(b)`: `OUT <- OUT ‖ [b]` (00_scope R11, 10_state R27). -/
def emit (b : Byte) (s : State) : State := { s with out := s.out ++ [b] }

/-- `Emit` of a sequence, in order. -/
def emitAll : List Byte → State → State
  | [], s => s
  | b :: bs, s => emitAll bs (emit b s)

/-- `EmitBE32(v)` (00_scope R11). -/
def emitBE32 (v : Word) (s : State) : State := emitAll (be32 v) s

/-! ## Entering ERROR and leaving it -/

/-- `raise BlockError(e)` by a command whose OPC is `opc` (60_exceptions R222): the only three registers written. -/
def raiseError (e : BlockError) (opc : BitVec 8) (s : State) : State :=
  { s with phase := .error, errcode := errorCode e, erropc := opc }

/-- Every register at its value of 10_state R46; OUT and what is outside CRCF unchanged. This is the whole effect of
SRST (42_control R180) and the register effect of `rst` (R181), the two ways out of ERROR (60_exceptions R227). -/
def resetRegs (s : State) : State :=
  { s with acc := crcInitValue, len := 0, count := 0, type := 0, phase := .idle, errcode := 0, erropc := 0 }

/-! ## The framer's steps -/

/-- `Emit(b); ACC <- upd(ACC, b)`, as FRM_TYPE does for a type byte and FRM_BYTE for a payload byte (41_framer R152,
R153). -/
def absorb (b : Byte) (s : State) : State :=
  let s := emit b s
  { s with acc := upd s.acc b }

/-- `absorb` of a sequence, in order. -/
def absorbAll : List Byte → State → State
  | [], s => s
  | b :: bs, s => absorbAll bs (absorb b s)

/-- FinishChunk (41_framer R154): emit the CRC field, COUNT <- 0, STATE <- IDLE; ACC is left. -/
def finishChunk (s : State) : State :=
  let s := emitBE32 (crcFinal s.acc) s
  { s with count := 0, phase := .idle }

/-! ## The order of checks -/

/-- A command of opcode `opc` whose effect is `effect` (60_exceptions R223, R224): in ERROR it is ignored; a set
reserved bit raises E_RESERVED; a STATE other than `wanted` raises `seqError`; else it has its effect. -/
def checked (opc : BitVec 8) (reservedOk : Bool) (wanted : Phase) (seqError : BlockError)
    (effect : State → State) (s : State) : Host.Outcome State Fault Refusal :=
  if s.phase = .error then .next s
  else if !reservedOk then .next (raiseError .reserved opc s)
  else if s.phase ≠ wanted then .next (raiseError seqError opc s)
  else .next (effect s)

/-- A word of an illegal OPC (30_encoding R97): ignored in ERROR, E_ILLEGAL_OPC otherwise, whatever RSV and OPD hold. -/
def illegalWord (opc : BitVec 8) (s : State) : State :=
  if s.phase = .error then s else raiseError .illegalOpc opc s

end Sys2Proof.Machine
end

