-- ==== Sys2Proof/Machine/Control.lean ====
section
/-! DEFINITION. The control command (spec/42_control.md R180) and the register read (R182). -/

namespace Sys2Proof.Machine

/-- SRST (42_control R180): well-formed, it resets every register in every STATE; with a reserved bit set it is
ignored in ERROR and raises E_RESERVED elsewhere. -/
def execSrst (rsv : BitVec 56) (s : State) : Host.Outcome State Fault Refusal :=
  if reservedClear rsv then .next (resetRegs s)
  else if s.phase = .error then .next s
  else .next (raiseError .reserved opcSrst s)

/-- ReadReg(a) (42_control R182; the map of 10_state R42): a reserved address reads 0 (R43), in every STATE. -/
def readReg (s : State) (a : RegAddr) : Word :=
  if a = 0x000 then statusView s
  else if a = 0x001 then crcResultView s
  else if a = 0x002 then s.acc
  else if a = 0x003 then s.len
  else if a = 0x004 then s.count
  else if a = 0x005 then s.type
  else if 0x100 ≤ a ∧ a ≤ 0x1FF then table ((a - 0x100).setWidth 8)
  else 0

end Sys2Proof.Machine
end

