-- ==== Sys2Proof/Machine/CrcCommands.lean ====
section
/-! DEFINITION. The standalone CRC commands (spec/40_crc.md R128, R129). -/

namespace Sys2Proof.Machine

/-- CRC_INIT (40_crc R128): `ACC <- 0xFFFFFFFF`, in IDLE only. -/
def execCrcInit (rsv : BitVec 56) (s : State) : Host.Outcome State Fault Refusal :=
  checked opcCrcInit (reservedClear rsv) .idle .crcBusy (fun s => { s with acc := crcInitValue }) s

/-- CRC_BYTE (40_crc R129): `ACC <- upd(ACC, B)`, in IDLE only. -/
def execCrcByte (rsv : BitVec 48) (b : Byte) (s : State) : Host.Outcome State Fault Refusal :=
  checked opcCrcByte (reservedClear rsv) .idle .crcBusy (fun s => { s with acc := upd s.acc b }) s

end Sys2Proof.Machine
end

