-- ==== Sys2Proof/Machine/Framer.lean ====
section
/-! DEFINITION. The framer's commands (spec/41_framer.md R151 to R154). -/

namespace Sys2Proof.Machine

/-- The effect of FRM_LEN in IDLE (41_framer R151). -/
def frmLenEffect (l : Word) (s : State) : State :=
  let s := emitBE32 l { s with len := l }
  { s with phase := .lenset }

/-- The effect of FRM_TYPE in LENSET (41_framer R152). -/
def frmTypeEffect (t : Word) (s : State) : State :=
  let u := absorbAll (bytes4 t) { s with type := t, acc := crcInitValue }
  if s.len = 0 then finishChunk u else { u with count := s.len, phase := .payload }

/-- The effect of FRM_BYTE in PAYLOAD (41_framer R153). -/
def frmByteEffect (b : Byte) (s : State) : State :=
  let owed := s.count - 1
  let u := { absorb b s with count := owed }
  if owed = 0 then finishChunk u else u

/-- FRM_LEN (41_framer R151), in IDLE only. -/
def execFrmLen (rsv : BitVec 24) (l : Word) (s : State) : Host.Outcome State Fault Refusal :=
  checked opcFrmLen (reservedClear rsv) .idle .lenSeq (frmLenEffect l) s

/-- FRM_TYPE (41_framer R152), in LENSET only. -/
def execFrmType (rsv : BitVec 24) (t : Word) (s : State) : Host.Outcome State Fault Refusal :=
  checked opcFrmType (reservedClear rsv) .lenset .typeSeq (frmTypeEffect t) s

/-- FRM_BYTE (41_framer R153), in PAYLOAD only. -/
def execFrmByte (rsv : BitVec 48) (b : Byte) (s : State) : Host.Outcome State Fault Refusal :=
  checked opcFrmByte (reservedClear rsv) .payload .byteSeq (frmByteEffect b) s

end Sys2Proof.Machine
end

