-- ==== Sys2Proof/Machine/Dispatch.lean ====
section
/-! DEFINITION. The meaning of a command: one arm per constructor of `Instr`. -/

namespace Sys2Proof.Machine

def exec (i : Instr) (s : State) : Host.Outcome State Fault Refusal :=
  match i with
  | .crcInit rsv => Sys2Proof.Machine.execCrcInit rsv s
  | .crcByte rsv b => Sys2Proof.Machine.execCrcByte rsv b s
  | .frmLen rsv l => Sys2Proof.Machine.execFrmLen rsv l s
  | .frmType rsv t => Sys2Proof.Machine.execFrmType rsv t s
  | .frmByte rsv b => Sys2Proof.Machine.execFrmByte rsv b s
  | .srst rsv => Sys2Proof.Machine.execSrst rsv s

end Sys2Proof.Machine
end

