-- ==== Sys2Proof/Machine/Ports.lean ====
section
/-! DEFINITION. The ports (spec/10_state.md R21 to R26, R47; spec/70_reset_and_hazards.md R260 to R262, R270):
accepting a command word, offering its bytes to the consumer, answering a read, the levels of `rst` and `out_ready`,
and which of the host's moves comes next. -/

namespace Sys2Proof.Machine

/-! ## Accepting a command -/

/-- The effect of a command word (30_encoding R96): its command's meaning, or the error of an illegal OPC. -/
def runWord (w : CmdWord) (s : State) : Host.Outcome State Fault Refusal :=
  match decodeWord w with
  | .instr i => exec i s
  | .illegalOpc opc => .next (illegalWord opc s)

/-- Whether the host's moves cut the transfer of the bytes in flight (log entry 22): before its next command or read,
which wait for the command in progress, the host asserts `rst` (R47: "at any time") or lets `out_ready` fall. -/
def cutsTransfer : List HostMove → Bool
  | [] => false
  | .command _ :: _ => false
  | .read _ :: _ => false
  | .rst true :: _ => true
  | .rst false :: ms => cutsTransfer ms
  | .outReady true :: ms => cutsTransfer ms
  | .outReady false :: _ => true
  | .take :: ms => cutsTransfer ms

/-- While `out_ready` is high the offered bytes transfer, in order (10_state R24). The model's choice of when (log
entries 4 and 22): all at once, unless the host cuts the transfer; then they are in flight until the move that cuts it,
which finds a free number of them gone. -/
def deliver (s : State) : State :=
  if s.outReady && !cutsTransfer s.moves then { s with out := s.out ++ s.inFlight, inFlight := [] } else s

/-- What stands around a command's effect when it has turned `s` into `t`: the host's position advances by 1 (10_state
R40), and the bytes `t` has beyond `s` are offered (R24). While any of them is in flight the command is in progress
(R22, R44; log entry 5). That a command ends in its own step when `out_ready` is high and the host does not cut the
transfer is the model's choice (log entries 4 and 22). -/
def offer (s t : State) : State :=
  deliver { t with index := t.index + 1, out := s.out, inFlight := t.out.drop s.out.length }

/-- A command word is accepted (10_state R22). -/
def accept (w : CmdWord) (s : State) : Host.Outcome State Fault Refusal :=
  match runWord w s with
  | .next t => .next (offer s t)
  | .fault r => .fault r
  | .refused r => .refused r

/-! ## The other moves of the host -/

/-- A read is answered (10_state R23, 42_control R182): nothing but the record of answers changes. -/
def answerRead (a : RegAddr) (s : State) : State := { s with answers := s.answers ++ [(a, readReg s a)] }

/-- `rst` is driven high (10_state R25, 70_reset R260 to R263). Every register takes its reset value, so the effects
of a command in progress are discarded. Of its bytes still in flight some prefix reaches the consumer, a free number of
them whatever the level of `out_ready` is (R262(b); log entries 1 and 22); the rest are gone. -/
def assertRst (s : State) : State :=
  let t := resetRegs s
  { t with
    rst := true
    out := t.out ++ t.inFlight.take (Config.tornBytes t.draws)
    inFlight := []
    draws := t.draws + 1 }

/-- `rst` is driven to a level. Deasserting it changes no register (70_reset R260). -/
def setRst (level : Bool) (s : State) : State :=
  if level then assertRst s else { s with rst := false }

/-- The consumer takes one offered byte, if there is one (10_state R24). -/
def takeByte (s : State) : State :=
  match s.inFlight with
  | [] => s
  | b :: bs => { s with out := s.out ++ [b], inFlight := bs }

/-- `out_ready` falls. Of the bytes still in flight a free number went out while it was high, none if it was low
already; the others stay in flight (10_state R24; log entries 1 and 22). -/
def lowerOutReady (s : State) : State :=
  let gone := if s.outReady then Config.tornBytes s.draws else 0
  { s with
    outReady := false
    out := s.out ++ s.inFlight.take gone
    inFlight := s.inFlight.drop gone
    draws := s.draws + 1 }

/-- `out_ready` is driven to a level (10_state R24). -/
def setOutReady (level : Bool) (s : State) : State :=
  if level then deliver { s with outReady := true } else lowerOutReady s

/-! ## Which move comes next -/

/-- A command and a read wait for `cmd_ready` (10_state R22, 42_control R183, 70_reset R260); pins do not. That a read
held by a command that `rst` then tears, or presented while `rst` is high, goes on waiting and is answered from the reset
state after the deassertion is the model's choice (log entry 25). -/
def moveEnabled (ready : Bool) : HostMove → Bool
  | .command _ => ready
  | .read _ => ready
  | .rst _ => true
  | .outReady _ => true
  | .take => true

/-- The first move that is not waiting, and the moves left, in their order (log entry 3). -/
def nextMove (ready : Bool) : List HostMove → Option (HostMove × List HostMove)
  | [] => none
  | m :: ms =>
    if moveEnabled ready m then some (m, ms)
    else
      match nextMove ready ms with
      | none => none
      | some (x, rest) => some (x, m :: rest)

/-- A move of the host takes place. -/
def perform (m : HostMove) (s : State) : Host.Outcome State Fault Refusal :=
  match m with
  | .command w => accept w s
  | .read a => .next (answerRead a s)
  | .rst level => .next (setRst level s)
  | .outReady level => .next (setOutReady level s)
  | .take => .next (takeByte s)

/-- No move can take place. With bytes in flight CRCF hangs (70_reset R270; 93 U3 `stuck`); otherwise it holds its
state (60_exceptions R232; log entry 7). -/
def holdState (s : State) : Host.Outcome State Fault Refusal :=
  if outValid s then .fault .outputStalled else .next s

/-- The host's turn: the first of its moves that is not waiting takes place, and leaves the list. -/
def hostTurn (s : State) : Host.Outcome State Fault Refusal :=
  match nextMove (cmdReady s) s.moves with
  | some (m, rest) => perform m { s with moves := rest }
  | none => holdState s

/-! ## Placing a command -/

/-- The state in which the host presents `w` as its next command, and CRCF can accept it (log entry 2). -/
def presentNext (w : CmdWord) (s : State) : State :=
  { s with moves := .command w :: s.moves, inFlight := [], rst := false }

end Sys2Proof.Machine
end

