-- ==== Sys2Proof/Machine/Step.lean ====
section
/-! DEFINITION. One step: the host's next move takes place (spec/10_state.md R20, R22, R47). -/

namespace Sys2Proof.Machine

/-- One step of CRCF. -/
def step (s : State) : Host.Outcome State Fault Refusal := hostTurn s

/-- The state in which the command of the bits `w` is the host's next command (log entry 2). -/
def State.withFetchWord (s : State) (nbits w : Nat) : State := presentNext (tableWord nbits w) s

end Sys2Proof.Machine
end

