-- ==== Sys2Proof/Machine/Assembler.lean ====
section
/-! DEFINITION. The assembler syntax and the pseudo-instructions (spec/30_encoding.md R101 to R103), and the tag
constants (spec/41_framer.md R163). No behaviour of CRCF depends on them (spec/92_eei_decisions.md D24). What R101
leaves open of a line's text (blanks, quotes, a quote within a quoted type, the case of hex digits) is log entry 16. -/

namespace Sys2Proof.Machine

/-! ## Tags (41_framer R163; log entry 17) -/

/-- The header tag "IHDR". -/
def tagIHDR : Word := 0x49484452
/-- The data tag "IDAT". -/
def tagIDAT : Word := 0x49444154
/-- The terminator tag "IEND". -/
def tagIEND : Word := 0x49454E44

/-! ## Pseudo-instructions (R103) -/

/-- `crc.buf b0, ..., bn-1`. -/
def crcBuf (bs : List Byte) : List Instr := .crcInit 0 :: bs.map (.crcByte 0)

/-- `frm.chunk T, b0, ..., bn-1`. For 2^32 bytes or more, which no operand of FRM_LEN can declare, the length is taken
modulo 2^32, the model's choice (log entry 23); the assembler refuses such a line (log entry 16). -/
def frmChunk (t : Word) (bs : List Byte) : List Instr :=
  .frmLen 0 (BitVec.ofNat 32 bs.length) :: .frmType 0 t :: bs.map (.frmByte 0)

/-- `frm.empty T`. -/
def frmEmpty (t : Word) : List Instr := [.frmLen 0 0, .frmType 0 t]

/-- `frm.iend`. -/
def frmIend : List Instr := [.frmLen 0 0, .frmType 0 tagIEND]

/-- The 13 bytes of an IHDR body (48_host_usage R203): pixel width, height, bit depth 1, and four fields 0. -/
def ihdrBody (w h : Word) : List Byte := be32 w ++ be32 h ++ [1, 0, 0, 0, 0]

/-- `frm.ihdr W, H`. -/
def frmIhdr (w h : Word) : List Instr := frmChunk tagIHDR (ihdrBody w h)

/-! ## Operands (R101) -/

/-- The value of a decimal digit. -/
def decDigit (c : Char) : Option Nat :=
  if '0' ≤ c ∧ c ≤ '9' then some (c.toNat - 48) else none

/-- The value of a hex digit, in either case. -/
def hexDigit (c : Char) : Option Nat :=
  if '0' ≤ c ∧ c ≤ '9' then some (c.toNat - 48)
  else if 'a' ≤ c ∧ c ≤ 'f' then some (c.toNat - 87)
  else if 'A' ≤ c ∧ c ≤ 'F' then some (c.toNat - 55)
  else none

/-- The number that digits of a base spell, after those that gave `n`. -/
def digitsFrom (base : Nat) (digit : Char → Option Nat) (n : Nat) : List Char → Option Nat
  | [] => some n
  | c :: cs =>
    match digit c with
    | none => none
    | some d => digitsFrom base digit (n * base + d) cs

/-- An integer: decimal, or hex after `0x`. -/
def parseNat : List Char → Option Nat
  | '0' :: 'x' :: d :: ds => digitsFrom 16 hexDigit 0 (d :: ds)
  | [] => none
  | d :: ds => digitsFrom 10 decDigit 0 (d :: ds)

/-- An integer below `2 ^ n`; one out of range is an assembly error. -/
def parseBits (n : Nat) (cs : List Char) : Option (BitVec n) :=
  match parseNat cs with
  | some v => if v < 2 ^ n then some (BitVec.ofNat n v) else none
  | none => none

/-- The double quote. -/
def quoteChar : Char := Char.ofNat 34

/-- A type operand: an integer, or four ASCII characters in double quotes, the first the most significant byte. One of
the four may be a double quote, without any escape: the model's choice, on which R101 is silent (log entry 16). -/
def parseTag (cs : List Char) : Option Word :=
  match cs with
  | [q, c0, c1, c2, c3, q'] =>
    if q = quoteChar ∧ q' = quoteChar then
      if [c0, c1, c2, c3].all (fun c => decide (c.toNat < 128)) then
        some (BitVec.ofNat 8 c0.toNat ++ BitVec.ofNat 8 c1.toNat ++ BitVec.ofNat 8 c2.toNat ++ BitVec.ofNat 8 c3.toNat)
      else none
    else parseBits 32 cs
  | _ => parseBits 32 cs

/-- A list of byte operands. -/
def parseBytes : List (List Char) → Option (List Byte)
  | [] => some []
  | o :: os =>
    match parseBits 8 o, parseBytes os with
    | some b, some bs => some (b :: bs)
    | _, _ => none

/-! ## Lines (R101) -/

/-- A blank of a line. -/
def isBlank (c : Char) : Bool := c == ' ' || c == '\t'

/-- A line up to the `;` of its comment; a `;` between double quotes is no comment. Every double quote opens or closes
quoted text, one among a type's four characters too, so that it decides what a later `;` is: the model's choice, on which
R101 is silent (log entry 16). -/
def stripComment (quoted : Bool) : List Char → List Char
  | [] => []
  | c :: cs =>
    if c = ';' ∧ quoted = false then []
    else c :: stripComment (if c = quoteChar then !quoted else quoted) cs

/-- Text without its blanks at both ends. -/
def trim (cs : List Char) : List Char := ((cs.dropWhile isBlank).reverse.dropWhile isBlank).reverse

/-- Text cut at the commas that stand outside double quotes; `cur` is the piece before, reversed. Every double quote
opens or closes quoted text, one among a type's four characters too: the model's choice (log entry 16). -/
def splitCommas (quoted : Bool) (cur : List Char) : List Char → List (List Char)
  | [] => [cur.reverse]
  | c :: cs =>
    if c = ',' ∧ quoted = false then cur.reverse :: splitCommas false [] cs
    else splitCommas (if c = quoteChar then !quoted else quoted) (c :: cur) cs

/-- The operands of a line, after its mnemonic. -/
def operandsOf (cs : List Char) : List (List Char) :=
  match trim cs with
  | [] => []
  | t => (splitCommas false [] t).map trim

/-- The commands of a mnemonic (in lower case) with its operands; `none` is an assembly error. -/
def assembleParts (mn : List Char) (ops : List (List Char)) : Option (List Instr) :=
  if mn = "crc.init".toList then
    match ops with
    | [] => some [.crcInit 0]
    | _ => none
  else if mn = "crc.byte".toList then
    match ops with
    | [b] => (parseBits 8 b).map fun b => [.crcByte 0 b]
    | _ => none
  else if mn = "frm.len".toList then
    match ops with
    | [l] => (parseBits 32 l).map fun l => [.frmLen 0 l]
    | _ => none
  else if mn = "frm.type".toList then
    match ops with
    | [t] => (parseTag t).map fun t => [.frmType 0 t]
    | _ => none
  else if mn = "frm.byte".toList then
    match ops with
    | [b] => (parseBits 8 b).map fun b => [.frmByte 0 b]
    | _ => none
  else if mn = "srst".toList then
    match ops with
    | [] => some [.srst 0]
    | _ => none
  else if mn = "crc.buf".toList then (parseBytes ops).map crcBuf
  else if mn = "frm.chunk".toList then
    match ops with
    | [] => none
    | t :: bs =>
      match parseTag t, parseBytes bs with
      | some t, some bs => if bs.length < 2 ^ 32 then some (frmChunk t bs) else none
      | _, _ => none
  else if mn = "frm.empty".toList then
    match ops with
    | [t] => (parseTag t).map frmEmpty
    | _ => none
  else if mn = "frm.iend".toList then
    match ops with
    | [] => some frmIend
    | _ => none
  else if mn = "frm.ihdr".toList then
    match ops with
    | [w, h] =>
      match parseBits 32 w, parseBits 32 h with
      | some w, some h => some (frmIhdr w h)
      | _, _ => none
    | _ => none
  else none

/-- The commands of one line: none for a line of blanks and comment, else its mnemonic's (in any case of letters). -/
def assembleLine (line : List Char) : Option (List Instr) :=
  match trim (stripComment false line) with
  | [] => some []
  | t => assembleParts ((t.takeWhile fun c => !isBlank c).map Char.toLower) (operandsOf (t.dropWhile fun c => !isBlank c))

/-- The command words of a program, one command per line, in order (R101, R102). -/
def assemble : List (List Char) → Option (List CmdWord)
  | [] => some []
  | l :: ls =>
    match assembleLine l, assemble ls with
    | some is, some ws => some (is.map encodeWord ++ ws)
    | _, _ => none

end Sys2Proof.Machine
end

