-- ==== Sys2Proof/Machine/HostUsage.lean ====
section
/-! DEFINITION. The host's side of a PNG (spec/48_host_usage.md R200 to R209) and the document's `build_chunk`
(spec/41_framer.md R155). They bind the host: CRCF checks none of this (R200). The Reshaper and the compressor are out of
scope (spec/00_scope.md R6); their results are arguments here. -/

namespace Sys2Proof.Machine

/-- The document's `build_chunk(bytes4(T), p)` (41_framer R155). Its length field has 32 bits; for a payload of 2^32 bytes
or more, of which the spec says nothing, it is the length modulo 2^32, the model's choice (log entry 23). -/
def buildChunk (t : Word) (p : List Byte) : List Byte :=
  be32 (BitVec.ofNat 32 p.length) ++ bytes4 t ++ p ++ be32 (crc32 (bytes4 t ++ p))

/-- SIGNATURE, which the host writes before the first chunk (R202). -/
def signature : List Byte := [137, 80, 78, 71, 13, 10, 26, 10]

/-- The IHDR width field of a row of `w` content bytes, always times 8 (R204, 90_conflicts C1; log entry 19). -/
def pixelWidth (w : Word) : Word := w * 8

/-- The commands of a whole PNG: content width `w`, height `h`, compressed bytes `z` (R207). -/
def pngCommands (w h : Word) (z : List Byte) : List Instr :=
  frmIhdr (pixelWidth w) h ++ frmChunk tagIDAT z ++ frmIend

/-- The three chunks of a whole PNG, the part of the wire format that CRCF emits (R201). -/
def pngChunks (w h : Word) (z : List Byte) : List Byte :=
  buildChunk tagIHDR (ihdrBody (pixelWidth w) h) ++ buildChunk tagIDAT z ++ buildChunk tagIEND []

/-- The wire format `SIGNATURE ‖ header_chunk ‖ data_chunk ‖ end_chunk` (R201). -/
def pngStream (w h : Word) (z : List Byte) : List Byte := signature ++ pngChunks w h z

/-- The document's two errors, which belong to the host (R208, 60_exceptions R233). -/
inductive HostError where
  /-- The compressor failed: fatal, no retry. -/
  | compressionFailure
  /-- The Reshaper's input is empty or its computed width is zero. -/
  | invalidInput
  deriving DecidableEq, Repr

/-- What the host issues for an input of `n` bytes that the Reshaper made `w` content bytes wide and `h` rows high, with
the compressor's answer `z`: on either error, no chunk command (R208). For an answer of 2^32 bytes or more, which no
operand of FRM_LEN can declare, the spec says nothing; that the plan goes through, with the length modulo 2^32, is the
model's choice (log entry 23). -/
def hostPlan (n : Nat) (w h : Word) (z : Option (List Byte)) : Except HostError (List Instr) :=
  if n = 0 ∨ w = 0 then .error .invalidInput
  else
    match z with
    | none => .error .compressionFailure
    | some z => .ok (pngCommands w h z)

/-- What the host issues when an error comes after some chunk commands (R208). -/
def abandonChunk : List Instr := [.srst 0]

/-- How far the host is with one image: how many bytes OUT had when it began, and the commands it has issued for it,
oldest first (log entry 24). -/
structure HostJob where
  start : Nat
  issued : List Instr
  deriving DecidableEq, Repr

/-- What the host does next for an image: the commands it still issues, the part of OUT it keeps, and the error it hands
to its caller, if any. -/
structure HostReaction where
  commands : List Instr
  kept : List Byte
  error : Option HostError
  deriving DecidableEq, Repr

/-- Discarding the partial stream of an image (R208): of OUT the host keeps what was there before the image began. -/
def discardPartial (start : Nat) (out : List Byte) : List Byte := out.take start

/-- What the host does when its plan for the image is known. With an error it issues no chunk command; if it has issued
some already, it discards OUT's partial stream and issues SRST (R208). Without one it issues the rest of the plan and
keeps all of OUT (R207). -/
def hostReact (job : HostJob) (out : List Byte) (plan : Except HostError (List Instr)) : HostReaction :=
  match plan with
  | .ok is =>
    { commands := is.drop job.issued.length
      kept := out
      error := none }
  | .error e =>
    { commands := if job.issued.isEmpty then [] else abandonChunk
      kept := discardPartial job.start out
      error := some e }

end Sys2Proof.Machine
end

