-- ==== Sys2Proof/Safety.lean ====
section
/-! DEFINITION. The terms in which claims are stated: the invariant of spec/10_state.md R45, the reset values of R46 as
a predicate, what lies outside a command's reach, the error a word raises (spec/60_exceptions.md R224) read off the
opcode table, the framer's state machine (spec/41_framer.md R150), and runs of commands. -/

namespace Sys2Proof.Machine

/-! ## States -/

/-- Every byte emitted so far: those on OUT, then those of the command in progress. -/
def State.stream (s : State) : List Byte := s.out ++ s.inFlight

/-- The invariants of 10_state R45 (clauses a to e), with what they need to be kept by every step: the length field
is on the wire in LENSET, no byte is in flight while `rst` is asserted, and with the consumer ready bytes are in flight
only when the host is about to cut their transfer. -/
structure State.Inv (s : State) : Prop where
  noError : s.phase ≠ .error → s.errcode = 0 ∧ s.erropc = 0
  errorCode : s.phase = .error → 1 ≤ s.errcode.toNat ∧ s.errcode.toNat ≤ 6
  payloadCount : s.phase = .payload → 1 ≤ s.count.toNat ∧ s.count.toNat ≤ s.len.toNat
  idleCount : s.phase = .idle ∨ s.phase = .lenset → s.count = 0
  lensetWire : s.phase = .lenset → be32 s.len <:+ s.stream
  payloadWire : s.phase = .payload → ∃ p : List Byte,
    p.length = s.len.toNat - s.count.toNat ∧ (be32 s.len ++ bytes4 s.type ++ p) <:+ s.stream ∧
      s.acc = updAll 0xFFFFFFFF (bytes4 s.type ++ p)
  rstQuiet : s.rst = true → s.inFlight = []
  readyQuiet : s.outReady = true → s.inFlight = [] ∨ cutsTransfer s.moves = true

/-- Every register is at its value of 10_state R46. -/
def State.RegsReset (s : State) : Prop :=
  s.acc = 0xFFFFFFFF ∧ s.len = 0 ∧ s.count = 0 ∧ s.type = 0 ∧ s.phase = .idle ∧ s.errcode = 0 ∧ s.erropc = 0

/-- The registers of 10_state R28 are the same in two states. -/
def SameRegs (s t : State) : Prop :=
  t.acc = s.acc ∧ t.len = s.len ∧ t.count = s.count ∧ t.type = s.type ∧ t.phase = s.phase ∧
    t.errcode = s.errcode ∧ t.erropc = s.erropc

/-- What no command's meaning writes: the bytes in flight, the pins, the host's moves and position, the record of
reads, and the model's counter. -/
def SameOutside (s t : State) : Prop :=
  t.inFlight = s.inFlight ∧ t.rst = s.rst ∧ t.outReady = s.outReady ∧ t.moves = s.moves ∧ t.index = s.index ∧
    t.answers = s.answers ∧ t.draws = s.draws

/-- The state after an error of code `c` by a word of opcode `opc` (60_exceptions R222). -/
def State.afterError (s : State) (c : BitVec 4) (opc : BitVec 8) : State :=
  { s with phase := .error, errcode := c, erropc := opc }

/-- CRCF can accept a command and answer a read: nothing is in progress and `rst` is low (10_state R22, 70_reset
R260). -/
def State.Ready (s : State) : Prop := s.inFlight = [] ∧ s.rst = false

/-! ## Errors and phases -/

/-- The STATE check of a row (60_exceptions R224, step 3): the code of the row's own state error, if it applies. -/
def sequenceError (mnemonic : String) (p : Phase) : Option (BitVec 4) :=
  if mnemonic = "CRC_INIT" ∨ mnemonic = "CRC_BYTE" then if p = .idle then none else some 3
  else if mnemonic = "FRM_LEN" then if p = .idle then none else some 4
  else if mnemonic = "FRM_TYPE" then if p = .lenset then none else some 5
  else if mnemonic = "FRM_BYTE" then if p = .payload then none else some 6
  else none

/-- The error a word raises when accepted in a STATE other than ERROR, by the order of 60_exceptions R224. -/
def wordError (p : Phase) (w : CmdWord) : Option (BitVec 4) :=
  match rowOf w with
  | none => some 1
  | some r => if w &&& r.mustBeZero ≠ 0 then some 2 else sequenceError r.mnemonic p

/-- The cells of the framer's state machine (41_framer R150) for a well-formed command: the STATE after it, and the
code of the error where the cell is one. `len` and `count` are LEN and COUNT before the command. -/
def framerCell (p : Phase) (len count : Word) : Instr → Phase × Option (BitVec 4)
  | .srst _ => (.idle, none)
  | .frmLen _ _ =>
    match p with
    | .idle => (.lenset, none)
    | .lenset => (.error, some 4)
    | .payload => (.error, some 4)
    | .error => (.error, none)
  | .frmType _ _ =>
    match p with
    | .idle => (.error, some 5)
    | .lenset => (if len = 0 then .idle else .payload, none)
    | .payload => (.error, some 5)
    | .error => (.error, none)
  | .frmByte _ _ =>
    match p with
    | .idle => (.error, some 6)
    | .lenset => (.error, some 6)
    | .payload => (if count = 1 then .idle else .payload, none)
    | .error => (.error, none)
  | .crcInit _ =>
    match p with
    | .idle => (.idle, none)
    | .lenset => (.error, some 3)
    | .payload => (.error, some 3)
    | .error => (.error, none)
  | .crcByte _ _ =>
    match p with
    | .idle => (.idle, none)
    | .lenset => (.error, some 3)
    | .payload => (.error, some 3)
    | .error => (.error, none)

/-! ## Moves and runs -/

/-- A move that waits for CRCF: a command or a read. The others are pin moves. -/
def HostMove.waits : HostMove → Bool
  | .command _ => true
  | .read _ => true
  | .rst _ => false
  | .outReady _ => false
  | .take => false

/-- The host's moves that present a list of commands, in order. -/
def presents (is : List Instr) : List HostMove := is.map fun i => .command (encodeWord i)

/-- `n` steps of the machine. -/
def runSteps (n : Nat) (s : State) : Host.Outcome State Fault Refusal := Host.Core.run Sys2Proof.core n s

/-- The effects of a list of commands, each run to its end before the next (00_scope R12). -/
def execAll : List Instr → State → Host.Outcome State Fault Refusal
  | [], s => .next s
  | i :: is, s =>
    match exec i s with
    | .next t => execAll is t
    | .fault r => .fault r
    | .refused r => .refused r

/-- The commands `is`, accepted one after another in `s` with no other between, have the effects that lead to `u`; and
when the host presents them to a CRCF that is ready, with a consumer that is ready, as many steps lead there, and what
the host does next, which does not cut the transfer of the last bytes, is still to come. -/
def RunsTo (is : List Instr) (s u : State) : Prop :=
  execAll is s = .next u ∧
  ∀ rest : List HostMove, s.Ready → s.outReady = true → cutsTransfer rest = false →
    runSteps is.length { s with moves := presents is ++ rest } =
      .next { u with moves := rest, index := s.index + is.length }

end Sys2Proof.Machine
end

