-- ==== Sys2Proof/Certificates/Slice0/Obligations.lean ====
section
/-! DEFINITION. The statements for the provers, by the section files of spec/. -/

open Sys2Proof Sys2Proof.Machine

/-! ## 30_encoding.md -/

/-- 30_encoding R90, R95: decoding the byte string of any command, well-formed or not, gives the command back with
every operand and every reserved bit, and leaves the bytes after it. -/
def Obligations.DecodeOfEncodeIsIdentity : Prop :=
  ∀ (i : Instr) (rest : List Byte), decode (encode i ++ rest) = .instr i rest

/-- 30_encoding R90, R95, R96: a word that decodes to a command is that command's word, so each word has one meaning. -/
def Obligations.DecodedWordReencodes : Prop :=
  ∀ (w : CmdWord) (i : Instr), decodeWord w = .instr i → encodeWord i = w

/-- 30_encoding R97: the illegal opcodes are the 250 others; outside ERROR each raises error 1 whatever RSV and OPD
hold, in ERROR it is ignored; OPC 0x00 is one of them. -/
def Obligations.IllegalOpcodesRaiseErrorOne : Prop :=
  ((List.range 256).filter fun n =>
      ([0x01, 0x02, 0x10, 0x11, 0x12, 0xFF] : List Nat).contains n == false).length = 250 ∧
  ∀ w : CmdWord,
    let opc := w.extractLsb' 56 8
    (decodeWord w = .illegalOpc opc ↔ opc ∉ ([0x01, 0x02, 0x10, 0x11, 0x12, 0xFF] : List (BitVec 8))) ∧
    ∀ s : State, opc ∉ ([0x01, 0x02, 0x10, 0x11, 0x12, 0xFF] : List (BitVec 8)) →
      (s.phase ≠ .error → runWord w s = .next (s.afterError 1 opc)) ∧
      (s.phase = .error → runWord w s = .next s)

/-- 30_encoding R95: the six rows; a word selects a row when `(w & mask) == match`, it then decodes to that row's
command, at most one row is selected, and the word is well-formed when also `(w & must_be_zero) == 0`. -/
def Obligations.OpcodeMapSelectsTheCommand : Prop :=
  opcodeTable.map (fun r => (r.mnemonic, r.matchBits, r.mask, r.mustBeZero)) =
    [("CRC_INIT", 0x0100000000000000, 0xFF00000000000000, 0x00FFFFFFFFFFFFFF),
     ("CRC_BYTE", 0x0200000000000000, 0xFF00000000000000, 0x00FFFFFFFFFFFF00),
     ("FRM_LEN", 0x1000000000000000, 0xFF00000000000000, 0x00FFFFFF00000000),
     ("FRM_TYPE", 0x1100000000000000, 0xFF00000000000000, 0x00FFFFFF00000000),
     ("FRM_BYTE", 0x1200000000000000, 0xFF00000000000000, 0x00FFFFFFFFFFFF00),
     ("SRST", 0xFF00000000000000, 0xFF00000000000000, 0x00FFFFFFFFFFFFFF)] ∧
  ∀ w : CmdWord,
    (∀ r ∈ opcodeTable, w &&& r.mask = r.matchBits →
      ∃ i, decodeWord w = .instr i ∧ i.mnemonic = r.mnemonic ∧ (i.WellFormed = true ↔ w &&& r.mustBeZero = 0)) ∧
    (∀ i, decodeWord w = .instr i → ∃ r ∈ opcodeTable, w &&& r.mask = r.matchBits) ∧
    (∀ r ∈ opcodeTable, ∀ r' ∈ opcodeTable,
      w &&& r.mask = r.matchBits → w &&& r'.mask = r'.matchBits → r = r')

/-- 30_encoding R92, R98: outside ERROR, a legal OPC with any reserved bit set, RSV or a must-be-zero bit of OPD,
raises error 2, and the command has no other effect. -/
def Obligations.ReservedBitsRaiseErrorTwo : Prop :=
  ∀ (w : CmdWord) (s : State), ∀ r ∈ opcodeTable, w &&& r.mask = r.matchBits → s.phase ≠ .error →
    (w &&& r.mustBeZero ≠ 0 → runWord w s = .next (s.afterError 2 (w.extractLsb' 56 8))) ∧
    (w.extractLsb' 32 24 ≠ 0 → runWord w s = .next (s.afterError 2 (w.extractLsb' 56 8)))

/-- 30_encoding R102: the encoding of an assembled command is `OPC << 56 | zext_64(operand)`, with the six examples. -/
def Obligations.AssembledCommandEncoding : Prop :=
  encodeWord (.crcInit 0) = 0x01 <<< 56 ∧
  (∀ b : Byte, encodeWord (.crcByte 0 b) = 0x02 <<< 56 ||| b.setWidth 64) ∧
  (∀ l : Word, encodeWord (.frmLen 0 l) = 0x10 <<< 56 ||| l.setWidth 64) ∧
  (∀ t : Word, encodeWord (.frmType 0 t) = 0x11 <<< 56 ||| t.setWidth 64) ∧
  (∀ b : Byte, encodeWord (.frmByte 0 b) = 0x12 <<< 56 ||| b.setWidth 64) ∧
  encodeWord (.srst 0) = 0xFF <<< 56 ∧
  assemble ["crc.init".toList, "crc.byte 0x31".toList, "frm.len 13".toList, "frm.type \"IHDR\"".toList,
      "frm.byte 0xFF".toList, "srst".toList] =
    some [0x0100000000000000, 0x0200000000000031, 0x100000000000000D, 0x1100000049484452, 0x12000000000000FF,
      0xFF00000000000000]

/-- 30_encoding R90, R95 (sanity): words written out bit by bit from the encoding of each command decode to it. -/
def Obligations.SpecWordsDecodeToTheirCommands : Prop :=
  decodeWord 0x0100000000000000 = .instr (.crcInit 0) ∧
  decodeWord 0x0200000000000061 = .instr (.crcByte 0 0x61) ∧
  decodeWord 0x100000000000000D = .instr (.frmLen 0 13) ∧
  decodeWord 0x1100000049484452 = .instr (.frmType 0 0x49484452) ∧
  decodeWord 0x12000000000000FF = .instr (.frmByte 0 0xFF) ∧
  decodeWord 0xFF00000000000000 = .instr (.srst 0) ∧
  decodeWord 0x0200000000000100 = .instr (.crcByte 1 0) ∧
  decodeWord 0x1080000000000000 = .instr (.frmLen 0x800000 0) ∧
  decodeWord 0x13FFFFFF00000000 = .illegalOpc 0x13 ∧
  decode [0x11, 0, 0, 0, 0x49, 0x48, 0x44, 0x52] = .instr (.frmType 0 0x49484452) []

/-- 30_encoding R101, R103 (sanity, with the model's reading of a line's text, log entry 16): a program's text with its
pseudo-instructions gives the words of their expansions, and an operand out of range gives none. -/
def Obligations.AssemblerExpandsPrograms : Prop :=
  assemble ["CRC.BUF 0x31, 50 ; two bytes".toList, "".toList, "frm.chunk \"IDAT\", 0, 255".toList,
      "frm.empty 0x49454E44".toList, "frm.iend".toList] =
    some [0x0100000000000000, 0x0200000000000031, 0x0200000000000032, 0x1000000000000002, 0x1100000049444154,
      0x1200000000000000, 0x12000000000000FF, 0x1000000000000000, 0x1100000049454E44, 0x1000000000000000,
      0x1100000049454E44] ∧
  (assemble ["frm.ihdr 24, 1".toList]).map (fun ws => (ws.length, ws.take 3, ws.drop 13)) =
    some (15, [0x100000000000000D, 0x1100000049484452, 0x1200000000000000], [0x1200000000000000, 0x1200000000000000]) ∧
  assemble ["crc.byte 256".toList] = none ∧ assemble ["frm.len 0x100000000".toList] = none

/-! ## 40_crc.md -/

/-- 40_crc R123: TABLE, computed by R121, is the list the spec prints. -/
def Obligations.TableIsTheListing : Prop :=
  referenceTable.length = 256 ∧ ∀ n : Byte, referenceTable[n.toNat]? = some (table n)

/-- 40_crc R122: the update reads the listed table at the low byte of `acc ^ zext_32(b)` and XORs with `acc >> 8`;
`upd*` applies it from the first byte to the last. -/
def Obligations.UpdateReadsTheListedTable : Prop :=
  (∀ (acc : Word) (b : Byte), ∃ e,
    referenceTable[((acc ^^^ b.setWidth 32) &&& 0xFF).toNat]? = some e ∧ upd acc b = e ^^^ (acc >>> 8)) ∧
  (∀ acc, updAll acc [] = acc) ∧
  ∀ (acc : Word) (s : List Byte) (b : Byte), updAll acc (s ++ [b]) = upd (updAll acc s) b

/-- 40_crc R125: the document's two check values. -/
def Obligations.CrcCheckValues : Prop :=
  crc32 [] = 0x00000000 ∧ crc32 [0x31, 0x32, 0x33, 0x34, 0x35, 0x36, 0x37, 0x38, 0x39] = 0xCBF43926

/-- 40_crc R126: the bit-serial form, bit 0 of `b` first, equals the update of R122 for every acc and b. -/
def Obligations.BitSerialFormEqualsUpdate : Prop :=
  ∀ (acc : Word) (b : Byte),
    [0, 1, 2, 3, 4, 5, 6, 7].foldl
      (fun (a : Word) (i : Nat) =>
        (a >>> 1) ^^^ (if (a ^^^ (b >>> i).setWidth 32) &&& 1 = 1 then 0xEDB88320 else 0)) acc = upd acc b

/-- 40_crc R131: changing any single byte of a sequence, at any position, changes its CRC. -/
def Obligations.SingleByteChangeChangesCrc : Prop :=
  ∀ (pre post : List Byte) (b b' : Byte), b ≠ b' → crc32 (pre ++ b :: post) ≠ crc32 (pre ++ b' :: post)

/-- 40_crc R132: linearity over GF(2) of `upd*` and of the CRC, for sequences of equal length. -/
def Obligations.UpdateIsLinear : Prop :=
  (∀ (a a' : Word) (s t : List Byte), s.length = t.length →
    updAll a s ^^^ updAll a' t = updAll (a ^^^ a') (List.zipWith (· ^^^ ·) s t)) ∧
  ∀ s t : List Byte, s.length = t.length →
    crc32 s ^^^ crc32 t ^^^ crc32 (List.replicate s.length 0) = crc32 (List.zipWith (· ^^^ ·) s t)

/-- 40_crc R128: CRC_INIT, all of it: encoding, each check in its order, effect, corner cases and example. -/
def Obligations.CrcInitFollowsItsRule : Prop :=
  decodeWord 0x0100000000000000 = .instr (.crcInit 0) ∧
  ∀ (rsv : BitVec 56) (s : State),
    decodeWord (0x01#8 ++ rsv) = .instr (.crcInit rsv) ∧
    (s.phase = .error → exec (.crcInit rsv) s = .next s) ∧
    (s.phase ≠ .error → rsv ≠ 0 → exec (.crcInit rsv) s = .next (s.afterError 2 0x01)) ∧
    (s.phase = .lenset ∨ s.phase = .payload → exec (.crcInit 0) s = .next (s.afterError 3 0x01)) ∧
    (s.phase = .idle →
      exec (.crcInit 0) s = .next { s with acc := 0xFFFFFFFF } ∧
      exec (.crcInit 0) { s with acc := 0xFFFFFFFF } = .next { s with acc := 0xFFFFFFFF }) ∧
    readReg { s with acc := 0xFFFFFFFF } 0x001 = 0x00000000

/-- 40_crc R129: CRC_BYTE, all of it. The reserved bits are RSV and OPD[31:8], `w[55:8]`. -/
def Obligations.CrcByteFollowsItsRule : Prop :=
  (∀ (rsv : BitVec 48) (b : Byte) (s : State),
    decodeWord (0x02#8 ++ rsv ++ b) = .instr (.crcByte rsv b) ∧
    (s.phase = .error → exec (.crcByte rsv b) s = .next s) ∧
    (s.phase ≠ .error → rsv ≠ 0 → exec (.crcByte rsv b) s = .next (s.afterError 2 0x02)) ∧
    (s.phase = .lenset ∨ s.phase = .payload → exec (.crcByte 0 b) s = .next (s.afterError 3 0x02)) ∧
    (s.phase = .idle → exec (.crcByte 0 b) s = .next { s with acc := upd s.acc b })) ∧
  (∀ acc : Word, upd acc (acc.setWidth 8) = acc >>> 8) ∧
  upd 0x12345678 0x78 = 0x00123456 ∧ upd 0 0 = 0 ∧ upd 0xFFFFFFFF 0xFF = 0x00FFFFFF ∧
  upd 0xFFFFFFFF 0x00 = 0x2DFD1072 ∧ upd 0xFFFFFFFF 0x61 = 0x174841BC ∧
  ∀ s : State, readReg { s with acc := 0x174841BC } 0x001 = 0xE8B7BE43

/-- 40_crc R127: in IDLE, CRC_BYTE over a sequence with no other command between takes ACC to `upd*(ACC, s)`; after
CRC_INIT, right after reset and right after SRST, CRC_RESULT is then `crc32(s)`. -/
def Obligations.StreamingLaw : Prop :=
  (∀ (s : State) (bs : List Byte) (rest : List HostMove), s.phase = .idle → s.Ready →
    s.moves = presents (bs.map (.crcByte 0)) ++ rest →
    runSteps bs.length s =
      .next { s with acc := updAll s.acc bs, moves := rest, index := s.index + bs.length }) ∧
  (∀ (s : State) (bs : List Byte) (rest : List HostMove), s.phase = .idle → s.Ready →
    s.moves = presents (.crcInit 0 :: bs.map (.crcByte 0)) ++ rest →
    runSteps (bs.length + 1) s =
      .next { s with acc := updAll 0xFFFFFFFF bs, moves := rest, index := s.index + (bs.length + 1) }) ∧
  (∀ (s : State) (bs : List Byte) (rest : List HostMove), s.Ready →
    s.moves = presents (.srst 0 :: bs.map (.crcByte 0)) ++ rest →
    ∃ t, runSteps (bs.length + 1) s = .next t ∧ t.acc = updAll 0xFFFFFFFF bs ∧ readReg t 0x001 = crc32 bs) ∧
  (∀ bs : List Byte, ∃ t,
    runSteps bs.length { State.reset with moves := presents (bs.map (.crcByte 0)) } = .next t ∧
      t.acc = updAll 0xFFFFFFFF bs ∧ readReg t 0x001 = crc32 bs) ∧
  ∀ (s : State) (bs : List Byte), readReg { s with acc := updAll 0xFFFFFFFF bs } 0x001 = crc32 bs

/-! ## 41_framer.md -/

/-- 41_framer R151, 20_memory R64: FRM_LEN, all of it, with the four bytes of the length field big-endian. -/
def Obligations.FrmLenFollowsItsRule : Prop :=
  (∀ (rsv : BitVec 24) (l : Word) (s : State),
    decodeWord (0x10#8 ++ rsv ++ l) = .instr (.frmLen rsv l) ∧
    (s.phase = .error → exec (.frmLen rsv l) s = .next s) ∧
    (s.phase ≠ .error → rsv ≠ 0 → exec (.frmLen rsv l) s = .next (s.afterError 2 0x10)) ∧
    (s.phase = .lenset ∨ s.phase = .payload → exec (.frmLen 0 l) s = .next (s.afterError 4 0x10)) ∧
    (s.phase = .idle →
      exec (.frmLen 0 l) s =
        .next { s with
          len := l
          out := s.out ++ [l.extractLsb' 24 8, l.extractLsb' 16 8, l.extractLsb' 8 8, l.extractLsb' 0 8]
          phase := .lenset })) ∧
  ([(13 : Word).extractLsb' 24 8, (13 : Word).extractLsb' 16 8, (13 : Word).extractLsb' 8 8,
      (13 : Word).extractLsb' 0 8] : List Byte) = [0x00, 0x00, 0x00, 0x0D]

/-- 41_framer R152, R154, R160: FRM_TYPE, all of it, with FinishChunk when LEN = 0. -/
def Obligations.FrmTypeFollowsItsRule : Prop :=
  (∀ (rsv : BitVec 24) (t : Word) (s : State),
    let tag : List Byte := [t.extractLsb' 24 8, t.extractLsb' 16 8, t.extractLsb' 8 8, t.extractLsb' 0 8]
    let crc := updAll 0xFFFFFFFF tag ^^^ 0xFFFFFFFF
    decodeWord (0x11#8 ++ rsv ++ t) = .instr (.frmType rsv t) ∧
    (s.phase = .error → exec (.frmType rsv t) s = .next s) ∧
    (s.phase ≠ .error → rsv ≠ 0 → exec (.frmType rsv t) s = .next (s.afterError 2 0x11)) ∧
    (s.phase = .idle ∨ s.phase = .payload → exec (.frmType 0 t) s = .next (s.afterError 5 0x11)) ∧
    (s.phase = .lenset → s.len ≠ 0 →
      exec (.frmType 0 t) s =
        .next { s with
          type := t, acc := updAll 0xFFFFFFFF tag, out := s.out ++ tag, count := s.len, phase := .payload }) ∧
    (s.phase = .lenset → s.len = 0 →
      exec (.frmType 0 t) s =
        .next { s with
          type := t
          acc := updAll 0xFFFFFFFF tag
          out := s.out ++ tag ++ [crc.extractLsb' 24 8, crc.extractLsb' 16 8, crc.extractLsb' 8 8, crc.extractLsb' 0 8]
          count := 0
          phase := .idle })) ∧
  be32 (crc32 [0, 0, 0, 0]) = [0x21, 0x44, 0xDF, 0x1C] ∧ updAll 0xFFFFFFFF [0xFF, 0xFF, 0xFF, 0xFF] = 0 ∧
  updAll 0xFFFFFFFF [0x49, 0x45, 0x4E, 0x44] = 0x51BD9F7D ∧
  be32 (crc32 [0x49, 0x45, 0x4E, 0x44]) = [0xAE, 0x42, 0x60, 0x82]

/-- 41_framer R153, R154, 20_memory R65: FRM_BYTE, all of it, with FinishChunk on the last payload byte. -/
def Obligations.FrmByteFollowsItsRule : Prop :=
  (∀ (rsv : BitVec 48) (b : Byte) (s : State),
    let crc := upd s.acc b ^^^ 0xFFFFFFFF
    decodeWord (0x12#8 ++ rsv ++ b) = .instr (.frmByte rsv b) ∧
    (s.phase = .error → exec (.frmByte rsv b) s = .next s) ∧
    (s.phase ≠ .error → rsv ≠ 0 → exec (.frmByte rsv b) s = .next (s.afterError 2 0x12)) ∧
    (s.phase = .idle ∨ s.phase = .lenset → exec (.frmByte 0 b) s = .next (s.afterError 6 0x12)) ∧
    (s.phase = .payload → s.count - 1 ≠ 0 →
      exec (.frmByte 0 b) s =
        .next { s with acc := upd s.acc b, out := s.out ++ [b], count := s.count - 1 }) ∧
    (s.phase = .payload → s.count - 1 = 0 →
      exec (.frmByte 0 b) s =
        .next { s with
          acc := upd s.acc b
          out := s.out ++ b :: [crc.extractLsb' 24 8, crc.extractLsb' 16 8, crc.extractLsb' 8 8, crc.extractLsb' 0 8]
          count := 0
          phase := .idle })) ∧
  upd (updAll 0xFFFFFFFF [0x49, 0x44, 0x41, 0x54, 0x00]) 0xFF ^^^ 0xFFFFFFFF = 0x51F95237

/-- 41_framer R150: the framer's state machine, cell by cell, for every well-formed command in every STATE. -/
def Obligations.FramerStateMachine : Prop :=
  ∀ (i : Instr) (s : State), i.WellFormed = true →
    ∃ t, exec i s = .next t ∧ t.phase = (framerCell s.phase s.len s.count i).1 ∧
      ∀ c, (framerCell s.phase s.len s.count i).2 = some c → t = s.afterError c i.opcode

/-- 41_framer R155: the chunk law. From IDLE, the commands of a chunk with nothing between append exactly the bytes of
the document's `build_chunk` to OUT, raise no error, and leave every register as the rule says. -/
def Obligations.ChunkLaw : Prop :=
  ∀ (s : State) (t : Word) (p : List Byte), s.phase = .idle → p.length < 2 ^ 32 →
    RunsTo (.frmLen 0 (BitVec.ofNat 32 p.length) :: .frmType 0 t :: p.map (.frmByte 0)) s
      { s with
        acc := updAll 0xFFFFFFFF (bytes4 t ++ p)
        len := BitVec.ofNat 32 p.length
        count := 0
        type := t
        phase := .idle
        out := s.out ++ (be32 (BitVec.ofNat 32 p.length) ++ bytes4 t ++ p ++ be32 (crc32 (bytes4 t ++ p))) }

/-- 41_framer R156 (with 70_reset R268): after `frm.len n; frm.type T`, fewer than n payload bytes leave the chunk
open, exactly n complete it, and byte n + 1 raises E_BYTE_SEQ after the completed chunk; so a completed chunk's length
prefix is the number of its payload bytes. -/
def Obligations.LengthPrefixEqualsPayloadLength : Prop :=
  ∀ (s : State) (n t : Word) (p : List Byte), s.phase = .idle →
    ∃ u, RunsTo (.frmLen 0 n :: .frmType 0 t :: p.map (.frmByte 0)) s u ∧
      (p.length < n.toNat →
        u.phase = .payload ∧ u.count.toNat = n.toNat - p.length ∧ u.out = s.out ++ (be32 n ++ bytes4 t ++ p)) ∧
      (p.length = n.toNat → u.phase = .idle ∧ u.out = s.out ++ buildChunk t p) ∧
      (n.toNat < p.length →
        u.phase = .error ∧ u.errcode = 6 ∧ u.erropc = 0x12 ∧ u.out = s.out ++ buildChunk t (p.take n.toNat))

/-- 41_framer R157: COUNT is decremented only by FRM_BYTE with STATE = PAYLOAD, where it is at least 1, so the
decrement never wraps; otherwise only FRM_TYPE, which sets it to LEN, and SRST, which clears it, change it. -/
def Obligations.CountNeverWraps : Prop :=
  ∀ (i : Instr) (s t : State), s.Inv → exec i s = .next t →
    (i.mnemonic = "FRM_BYTE" → s.phase = .payload → t.phase ≠ .error →
      1 ≤ s.count.toNat ∧ t.count.toNat + 1 = s.count.toNat) ∧
    (t.count ≠ s.count →
      (i.mnemonic = "FRM_BYTE" ∧ s.phase = .payload ∧ t.phase ≠ .error) ∨
        (i.mnemonic = "FRM_TYPE" ∧ t.count = s.len) ∨ (i.mnemonic = "SRST" ∧ t.count = 0))

/-- 41_framer R161, R162, 70_reset R267, R269: CRC_RESULT in a frame is the CRC of the type and the payload so far;
FRM_LEN leaves ACC, so a CRC computed before it stays readable. -/
def Obligations.CrcResultInsideAFrame : Prop :=
  (∀ s : State, s.Inv → s.phase = .payload → ∃ p : List Byte,
    p.length = s.len.toNat - s.count.toNat ∧ (be32 s.len ++ bytes4 s.type ++ p) <:+ s.stream ∧
      readReg s 0x001 = crc32 (bytes4 s.type ++ p)) ∧
  ∀ (rsv : BitVec 24) (l : Word) (s t : State), exec (.frmLen rsv l) s = .next t → t.acc = s.acc

/-! ## 42_control.md and 10_state.md -/

/-- 42_control R180: SRST, all of it. -/
def Obligations.SrstFollowsItsRule : Prop :=
  ∀ (rsv : BitVec 56) (s : State),
    let r : State :=
      { s with acc := 0xFFFFFFFF, len := 0, count := 0, type := 0, phase := .idle, errcode := 0, erropc := 0 }
    decodeWord (0xFF#8 ++ rsv) = .instr (.srst rsv) ∧
    (s.phase = .error → rsv ≠ 0 → exec (.srst rsv) s = .next s) ∧
    (s.phase ≠ .error → rsv ≠ 0 → exec (.srst rsv) s = .next (s.afterError 2 0xFF)) ∧
    exec (.srst 0) s = .next r ∧ exec (.srst 0) r = .next r ∧ readReg r 0x000 = 0x00000000 ∧ errView r = false

/-- 42_control R182, 10_state R42, R43: ReadReg in every state and at every address: the six registers and views, the
256 entries of TABLE as 40_crc R123 lists them, and 0 at every reserved address. -/
def Obligations.ReadMap : Prop :=
  ∀ s : State,
    readReg s 0x000 = (s.erropc.setWidth 32 <<< 8) ||| (s.errcode.setWidth 32 <<< 4) ||| (phaseCode s.phase).setWidth 32 ∧
    readReg s 0x001 = s.acc ^^^ 0xFFFFFFFF ∧ readReg s 0x002 = s.acc ∧ readReg s 0x003 = s.len ∧
    readReg s 0x004 = s.count ∧ readReg s 0x005 = s.type ∧
    ∀ a : RegAddr,
      (0x006 ≤ a.toNat ∧ a.toNat ≤ 0x0FF → readReg s a = 0) ∧
      (0x100 ≤ a.toNat ∧ a.toNat ≤ 0x1FF → referenceTable[a.toNat - 0x100]? = some (readReg s a)) ∧
      (0x200 ≤ a.toNat → readReg s a = 0)

/-- 10_state R36, R33, R26: the fields of STATUS, its reserved bits, the four codes of STATE, and `err`. -/
def Obligations.StatusFields : Prop :=
  (∀ s : State,
    (readReg s 0x000).extractLsb' 0 2 = phaseCode s.phase ∧ (readReg s 0x000).extractLsb' 2 2 = 0 ∧
    (readReg s 0x000).extractLsb' 4 4 = s.errcode ∧ (readReg s 0x000).extractLsb' 8 8 = s.erropc ∧
    (readReg s 0x000).extractLsb' 16 16 = 0 ∧ (errView s = true ↔ (readReg s 0x000).extractLsb' 0 2 = 3)) ∧
  phaseCode .idle = 0 ∧ phaseCode .lenset = 1 ∧ phaseCode .payload = 2 ∧ phaseCode .error = 3

/-- 10_state R23, 42_control R182, R183 (the record `answers` is the model's own, log entry 9): a read presented while
CRCF is ready is answered from the present state, and changes no register, no byte of OUT and no position. -/
def Obligations.ReadHasNoSideEffect : Prop :=
  ∀ (s : State) (a : RegAddr) (rest : List HostMove), s.Ready → s.moves = .read a :: rest →
    step s = .next { s with moves := rest, answers := s.answers ++ [(a, readReg s a)] }

/-- 10_state R46: the reset values, in the model's reset state, after SRST and after an assertion of `rst`; no byte is
removed from OUT, and between commands OUT is unchanged. -/
def Obligations.ResetValues : Prop :=
  (State.reset.acc = 0xFFFFFFFF ∧ State.reset.len = 0 ∧ State.reset.count = 0 ∧ State.reset.type = 0 ∧
    State.reset.phase = .idle ∧ State.reset.errcode = 0 ∧ State.reset.erropc = 0 ∧ errView State.reset = false) ∧
  (∀ s : State, ∃ t, exec (.srst 0) s = .next t ∧ t.RegsReset ∧ errView t = false ∧ t.out = s.out) ∧
  ∀ (s : State) (rest : List HostMove), s.moves = .rst true :: rest →
    ∃ t, step s = .next t ∧ t.RegsReset ∧ errView t = false ∧ s.out <+: t.out ∧ (s.inFlight = [] → t.out = s.out)

/-- 10_state R28, the column "writer": which commands can change which register; a word of an illegal OPC can only
enter ERROR; and no move of the host but a command and an assertion of `rst` changes a register. -/
def Obligations.OnlyTheListedWritersWrite : Prop :=
  (∀ (i : Instr) (s t : State), exec i s = .next t →
    (t.acc ≠ s.acc → i.mnemonic ∈ ["CRC_INIT", "CRC_BYTE", "FRM_TYPE", "FRM_BYTE", "SRST"]) ∧
    (t.len ≠ s.len → i.mnemonic ∈ ["FRM_LEN", "SRST"]) ∧
    (t.count ≠ s.count → i.mnemonic ∈ ["FRM_TYPE", "FRM_BYTE", "SRST"]) ∧
    (t.type ≠ s.type → i.mnemonic ∈ ["FRM_TYPE", "SRST"]) ∧
    (t.phase ≠ s.phase → i.mnemonic ∈ ["FRM_LEN", "FRM_TYPE", "FRM_BYTE", "SRST"] ∨ t.phase = .error) ∧
    (t.errcode ≠ s.errcode → i.mnemonic = "SRST" ∨ t.phase = .error) ∧
    (t.erropc ≠ s.erropc → i.mnemonic = "SRST" ∨ t.phase = .error)) ∧
  (∀ (w : CmdWord) (opc : BitVec 8) (s t : State), decodeWord w = .illegalOpc opc → runWord w s = .next t →
    t = s ∨ t = s.afterError 1 opc) ∧
  ∀ s t : State, step s = .next t → ¬SameRegs s t → ∃ m rest,
    nextMove (cmdReady s) s.moves = some (m, rest) ∧ (m = .rst true ∨ ∃ w, m = .command w)

/-- 10_state R45: the invariants (a) to (e), as `State.Inv` states them together with what makes them inductive, are
kept by every step from every state that meets them, whatever the host does. -/
def Obligations.StepKeepsInvariant : Prop :=
  ∀ s t : State, s.Inv → step s = .next t → t.Inv

/-- 10_state R45, R46: the invariants hold at reset. -/
def Obligations.ResetMeetsInvariant : Prop := State.reset.Inv

/-- 10_state R27: OUT is append-only: no step removes or changes a byte of it, neither reset nor SRST. -/
def Obligations.OutIsAppendOnly : Prop :=
  (∀ s t : State, step s = .next t → s.out <+: t.out) ∧
  (∀ (i : Instr) (s t : State), exec i s = .next t → s.out <+: t.out) ∧
  ∀ (b : Byte) (s : State), emit b s = { s with out := s.out ++ [b] }

/-! ## Frames -/

/-- 40_crc R128, R129: CRC_INIT and CRC_BYTE change nothing but ACC, or, when they err, nothing but STATE, ERRCODE and
ERROPC; they emit no byte. -/
def Obligations.CrcCommandsFrame : Prop :=
  ∀ (i : Instr) (s t : State), i.mnemonic ∈ ["CRC_INIT", "CRC_BYTE"] → exec i s = .next t →
    SameOutside s t ∧ t.out = s.out ∧ t.len = s.len ∧ t.count = s.count ∧ t.type = s.type ∧
    ((t.phase = s.phase ∧ t.errcode = s.errcode ∧ t.erropc = s.erropc) ∨
      (s.phase ≠ .error ∧ t.phase = .error ∧ t.acc = s.acc))

/-- 41_framer R151: FRM_LEN leaves ACC, COUNT and TYPE; when it errs, LEN and OUT as well. -/
def Obligations.FrmLenFrame : Prop :=
  ∀ (rsv : BitVec 24) (l : Word) (s t : State), exec (.frmLen rsv l) s = .next t →
    SameOutside s t ∧ t.acc = s.acc ∧ t.count = s.count ∧ t.type = s.type ∧
    ((t.errcode = s.errcode ∧ t.erropc = s.erropc ∧ (t.out = s.out ++ be32 l ∨ t = s)) ∨
      (s.phase ≠ .error ∧ t.phase = .error ∧ t.len = s.len ∧ t.out = s.out))

/-- 41_framer R152: FRM_TYPE leaves LEN, and, unless it errs, ERRCODE and ERROPC; when it errs, ACC, COUNT, TYPE and
OUT. -/
def Obligations.FrmTypeFrame : Prop :=
  ∀ (rsv : BitVec 24) (ty : Word) (s t : State), exec (.frmType rsv ty) s = .next t →
    SameOutside s t ∧ t.len = s.len ∧
    ((t.errcode = s.errcode ∧ t.erropc = s.erropc) ∨
      (s.phase ≠ .error ∧ t.phase = .error ∧ t.acc = s.acc ∧ t.count = s.count ∧ t.type = s.type ∧ t.out = s.out))

/-- 41_framer R153: FRM_BYTE leaves LEN and TYPE, and, unless it errs, ERRCODE and ERROPC; when it errs, ACC, COUNT and
OUT. -/
def Obligations.FrmByteFrame : Prop :=
  ∀ (rsv : BitVec 48) (b : Byte) (s t : State), exec (.frmByte rsv b) s = .next t →
    SameOutside s t ∧ t.len = s.len ∧ t.type = s.type ∧
    ((t.errcode = s.errcode ∧ t.erropc = s.erropc) ∨
      (s.phase ≠ .error ∧ t.phase = .error ∧ t.acc = s.acc ∧ t.count = s.count ∧ t.out = s.out))

/-- 42_control R180: SRST changes no byte of OUT and nothing outside the registers. -/
def Obligations.SrstFrame : Prop :=
  ∀ (rsv : BitVec 56) (s t : State), exec (.srst rsv) s = .next t → SameOutside s t ∧ t.out = s.out

/-! ## 60_exceptions.md -/

/-- 60_exceptions R222, R225, 10_state R26: a word that takes CRCF into ERROR changes STATE, ERRCODE and ERROPC and
nothing else; ERROPC is its OPC, the code is one of 1 to 6, and `err` rises. -/
def Obligations.ErrorsArePrecise : Prop :=
  ∀ (w : CmdWord) (s t : State), s.phase ≠ .error → runWord w s = .next t → t.phase = .error →
    t = { s with phase := .error, errcode := t.errcode, erropc := w.extractLsb' 56 8 } ∧
      1 ≤ t.errcode.toNat ∧ t.errcode.toNat ≤ 6 ∧ errView s = false ∧ errView t = true

/-- 60_exceptions R223: in ERROR every accepted word but a well-formed SRST is ignored, illegal opcodes and malformed
SRSTs among them; it is still accepted. -/
def Obligations.ErrorStateIgnoresWords : Prop :=
  ∀ (w : CmdWord) (s : State) (rest : List HostMove), s.phase = .error → w ≠ 0xFF00000000000000 → s.Ready →
    s.moves = .command w :: rest → step s = .next { s with moves := rest, index := s.index + 1 }

/-- 60_exceptions R221, R224: outside ERROR, the error a word raises is the first of illegal OPC, reserved bits, and the
row's own STATE check; a word with none of them raises none. -/
def Obligations.ErrorPrecedence : Prop :=
  ∀ (w : CmdWord) (s : State), s.phase ≠ .error →
    (∀ c, wordError s.phase w = some c → runWord w s = .next (s.afterError c (w.extractLsb' 56 8))) ∧
    (wordError s.phase w = none →
      ∃ t, runWord w s = .next t ∧ t.phase ≠ .error ∧
        (t.errcode = s.errcode ∧ t.erropc = s.erropc ∨ w = 0xFF00000000000000))

/-- 60_exceptions R227: there are only two ways out of ERROR, a well-formed SRST and `rst`, and both restore every
register to its reset value. -/
def Obligations.OnlySrstAndRstLeaveError : Prop :=
  (∀ s t : State, s.phase = .error → step s = .next t → t.phase ≠ .error →
    t.RegsReset ∧ ∃ rest, nextMove (cmdReady s) s.moves = some (.rst true, rest) ∨
      nextMove (cmdReady s) s.moves = some (.command 0xFF00000000000000, rest)) ∧
  ∀ (s : State) (rest : List HostMove), s.phase = .error →
    (s.Ready → s.moves = .command 0xFF00000000000000 :: rest → ∃ t, step s = .next t ∧ t.RegsReset) ∧
    (s.moves = .rst true :: rest → ∃ t, step s = .next t ∧ t.RegsReset)

/-! ## Ports, 20_memory.md and 70_reset_and_hazards.md -/

/-- 10_state R22, R40, 30_encoding R96: when the host's next word decodes to a command, the step is that command's
meaning, with the host's position advanced by 1. When its bytes go out is the model's choice (log entries 4, 5 and 22):
they are on OUT when the consumer is ready and the host does not cut the transfer, else in flight. -/
def Obligations.StepRunsTheDecodedCommand : Prop :=
  ∀ (s : State) (w : CmdWord) (i : Instr) (rest : List HostMove), s.Ready → s.moves = .command w :: rest →
    decodeWord w = .instr i →
    ∃ t bs, exec i { s with moves := rest } = .next t ∧ t.out = s.out ++ bs ∧
      (s.outReady = true → cutsTransfer rest = false → step s = .next { t with index := s.index + 1 }) ∧
      (s.outReady = false ∨ cutsTransfer rest = true →
        step s = .next { t with index := s.index + 1, out := s.out, inFlight := bs })

/-- 30_encoding R96, R97, 10_state R40: when the host's next word has an illegal OPC, the step raises error 1, or
ignores the word in ERROR; the position advances by 1 all the same. -/
def Obligations.StepOnAnIllegalWord : Prop :=
  ∀ (s : State) (w : CmdWord) (opc : BitVec 8) (rest : List HostMove), s.Ready → s.moves = .command w :: rest →
    decodeWord w = .illegalOpc opc →
    step s =
      .next (if s.phase = .error then { s with moves := rest, index := s.index + 1 }
        else { s with moves := rest, index := s.index + 1, phase := .error, errcode := 1, erropc := opc })

/-- The model's placing of a command (log entry 2), its bits laid out as log entry 21 says (30_encoding R90): a word that
decodes is the one the next step runs (10_state R22, R24, R40, 30_encoding R96). When its bytes go out is the model's
choice (log entries 4, 5 and 22): they are on OUT when the consumer is ready and the host does not cut the transfer, else
in flight. -/
def Obligations.PresentedWordRunsNext : Prop :=
  ∀ (s : State) (n : Nat) (i : Instr), decodeTableWord 64 n = some i →
    ∃ t bs, exec i { s with inFlight := [], rst := false } = .next t ∧ t.out = s.out ++ bs ∧
      (s.outReady = true → cutsTransfer s.moves = false →
        step (s.withFetchWord 64 n) = .next { t with index := s.index + 1 }) ∧
      (s.outReady = false ∨ cutsTransfer s.moves = true →
        step (s.withFetchWord 64 n) = .next { t with index := s.index + 1, out := s.out, inFlight := bs })

/-- 10_state R22, R24, 42_control R183, 20_memory R72, 70_reset R260: while a command's bytes are in flight, or `rst`
is asserted, no command is accepted, no read is answered and no register changes, but by `rst`. The record of answers is
the model's own (log entry 9), and that the registers hold the command's result from its acceptance on is log entry 5. -/
def Obligations.NothingIsAcceptedMidCommand : Prop :=
  ∀ s t : State, ¬s.Ready → step s = .next t →
    t.index = s.index ∧ t.answers = s.answers ∧ (SameRegs s t ∨ (t.RegsReset ∧ t.rst = true))

/-- 10_state R24: the consumer takes the offered bytes in order. When they go is the model's choice: one by one with
take moves (log entry 3); all in one step when `out_ready` rises and the host does not cut the transfer, or none of them
in that step when it does (log entries 4 and 22). Nothing else changes. -/
def Obligations.ConsumerTakesBytesInOrder : Prop :=
  ∀ (s : State) (rest : List HostMove),
    (∀ (b : Byte) (bs : List Byte), s.inFlight = b :: bs → s.moves = .take :: rest →
      step s = .next { s with moves := rest, out := s.out ++ [b], inFlight := bs }) ∧
    (s.moves = .outReady true :: rest →
      (cutsTransfer rest = false →
        step s = .next { s with moves := rest, outReady := true, out := s.out ++ s.inFlight, inFlight := [] }) ∧
      (cutsTransfer rest = true → step s = .next { s with moves := rest, outReady := true }))

/-- 20_memory R80, R75(b), 10_state R24: backpressure delays a command and never changes OUT: a command met by a
consumer that is not ready ends, once its k bytes are taken, with the registers and the OUT its meaning gives. Taking
them one move at a time is the model's form (log entries 3 to 5). -/
def Obligations.BackpressureNeverChangesOut : Prop :=
  ∀ (s u : State) (w : CmdWord) (k : Nat) (rest : List HostMove), s.Ready → s.outReady = false →
    runWord w { s with moves := rest } = .next u → u.out.length = s.out.length + k →
    s.moves = .command w :: (List.replicate k .take ++ rest) →
    runSteps (k + 1) s = .next { u with index := s.index + 1 }

/-- 42_control R183, 20_memory R75(c) (the record `answers` is the model's own, log entry 9): a read issued while a
command is in progress is held until the command's k bytes are taken, and is answered from the state after it. That the
moves taking them go past the waiting read is the model's form of a schedule (log entry 3). -/
def Obligations.HeldReadIsAnsweredAfterTheCommand : Prop :=
  ∀ (s u : State) (w : CmdWord) (a : RegAddr) (k : Nat) (rest : List HostMove), s.Ready → s.outReady = false →
    runWord w { s with moves := rest } = .next u → u.out.length = s.out.length + k →
    s.moves = .command w :: .read a :: (List.replicate k .take ++ rest) →
    runSteps (k + 2) s =
      .next { u with index := s.index + 1, answers := s.answers ++ [(a, readReg u a)] }

/-- 70_reset R262, R263: when `rst` is asserted, the registers take their reset values, and of the k bytes still in
flight the consumer receives some prefix of length j, 0 <= j <= k; between commands nothing is torn. The statement
holds for every value of the free j (log entry 1). -/
def Obligations.ResetTearsAtSomePrefix : Prop :=
  ∀ (s : State) (rest : List HostMove), s.moves = .rst true :: rest →
    ∃ t j, step s = .next t ∧ t.RegsReset ∧ j ≤ s.inFlight.length ∧ t.out = s.out ++ s.inFlight.take j ∧
      t.inFlight = [] ∧ t.rst = true ∧ t.moves = rest ∧ t.index = s.index ∧ t.answers = s.answers ∧
      t.outReady = s.outReady ∧ (s.inFlight = [] → t.out = s.out)

/-- 70_reset R262: a command followed by an assertion of `rst`, whatever the consumer does, leaves the OUT from before it
followed by some prefix of its bytes, and the reset state of 10_state R46. The length j of the prefix is free
(log entries 1 and 22): the statement holds for every value of it. -/
def Obligations.TornCommandLeavesAPrefix : Prop :=
  ∀ (s u : State) (w : CmdWord) (rest : List HostMove), s.Ready →
    s.moves = .command w :: .rst true :: rest → runWord w s = .next u →
    ∃ t bs j, u.out = s.out ++ bs ∧ j ≤ bs.length ∧ runSteps 2 s = .next t ∧ t.RegsReset ∧
      t.out = s.out ++ bs.take j ∧ t.inFlight = []

/-- 10_state R24, R47 (that the bytes gone by then are a free number is the model's choice, log entries 1 and 22): when
`out_ready` falls, some prefix of the bytes in flight has gone out, none if it was low already, and the rest stays in
flight, in order; no register changes. -/
def Obligations.FallingOutReadyKeepsTheRest : Prop :=
  ∀ (s : State) (rest : List HostMove), s.moves = .outReady false :: rest →
    ∃ t j, step s = .next t ∧ j ≤ s.inFlight.length ∧ (s.outReady = false → j = 0) ∧
      t.out = s.out ++ s.inFlight.take j ∧ t.inFlight = s.inFlight.drop j ∧ t.outReady = false ∧ SameRegs s t ∧
      t.rst = s.rst ∧ t.moves = rest ∧ t.index = s.index ∧ t.answers = s.answers

/-- 70_reset R260: while `rst` is asserted no command is accepted, so the one presented waits. That the deassertion
behind it in the host's moves takes place first, past the waiting command, is the model's choice (log entry 3); it changes
nothing but the level and the moves. -/
def Obligations.CommandWaitsForResetToEnd : Prop :=
  ∀ (s : State) (w : CmdWord) (rest : List HostMove), s.inFlight = [] → s.rst = true →
    s.moves = .command w :: .rst false :: rest →
    step s = .next { s with rst := false, moves := .command w :: rest }

/-- 70_reset R270, 93 U3 give the hang: bytes are offered and the consumer never takes them. The model's choices: the hang
is the fault `outputStalled`, and a list of moves in which none touches a pin stands for a consumer that never acts (log
entries 3 and 6). The step is that fault exactly then, and no other fault (that no step is refused is
EveryWordHasANextState). -/
def Obligations.HangsExactlyWithoutAConsumer : Prop :=
  ∀ s : State,
    (step s = .fault .outputStalled ↔ s.inFlight ≠ [] ∧ ∀ m ∈ s.moves, m.waits = true) ∧
    ∀ f, step s = .fault f → f = .outputStalled

/-- 30_encoding R96 (decoding is total), 60_exceptions R220: no step is refused, and every word in every state has a
next state. -/
def Obligations.EveryWordHasANextState : Prop :=
  (∀ (s : State) (r : Refusal), step s ≠ .refused r) ∧
  (∀ (w : CmdWord) (s : State), ∃ t, runWord w s = .next t) ∧
  ∀ (i : Instr) (s : State), ∃ t, exec i s = .next t

/-- 10_state R20, 60_exceptions R232: with nothing presented and nothing in flight CRCF holds its state, which the model
reads from them as a step that answers the same state (log entry 7). -/
def Obligations.IdleHoldsItsState : Prop :=
  ∀ s : State, s.moves = [] → s.inFlight = [] → step s = .next s

/-! ## 48_host_usage.md -/

/-- 48_host_usage R207: from IDLE the command sequence of a whole PNG raises no error, leaves STATE = IDLE and
CRC_RESULT = 0xAE426082, and appends the three chunks to OUT: 25, 12 + len(z) and 12 bytes. The premises are the
ranges of the two operands (30_encoding R101, log entry 19). -/
def Obligations.PngCommandSequence : Prop :=
  ∀ (s : State) (w h : Word) (z : List Byte), s.phase = .idle → z.length < 2 ^ 32 → w.toNat * 8 < 2 ^ 32 →
    ∃ t, RunsTo (pngCommands w h z) s t ∧ t.phase = .idle ∧ t.errcode = s.errcode ∧
      readReg t 0x001 = 0xAE426082 ∧
      t.out = s.out ++ (buildChunk 0x49484452 (be32 (BitVec.ofNat 32 (w.toNat * 8)) ++ be32 h ++ [1, 0, 0, 0, 0]) ++
        buildChunk 0x49444154 z ++ buildChunk 0x49454E44 []) ∧
      t.out.length = s.out.length + (25 + (12 + z.length) + 12) ∧
      (signature ++ t.out.drop s.out.length).length = 8 + 25 + 12 + z.length + 12

/-- 48_host_usage R208: on either of the document's errors, after whatever commands of the image the host has issued, it
issues no chunk command any more: nothing if it had issued none, else SRST, which puts every register at its reset value
and leaves OUT; and of OUT it keeps what was there before the image, discarding the partial stream. Which of two errors
at once is reported is log entry 19; `HostJob` is the model's form of the host, log entry 24. -/
def Obligations.HostErrorsAbandonTheImage : Prop :=
  ∀ (n : Nat) (w h : Word) (z : Option (List Byte)),
    (n = 0 ∨ w = 0 → hostPlan n w h z = .error .invalidInput) ∧
    (n ≠ 0 → w ≠ 0 → z = none → hostPlan n w h z = .error .compressionFailure) ∧
    ∀ (e : HostError) (job : HostJob) (s u : State), hostPlan n w h z = .error e →
      execAll job.issued s = .next u → job.start = s.out.length →
      (hostReact job u.out (hostPlan n w h z)).error = some e ∧
      (hostReact job u.out (hostPlan n w h z)).kept = s.out ∧
      (job.issued = [] → (hostReact job u.out (hostPlan n w h z)).commands = []) ∧
      (job.issued ≠ [] → (hostReact job u.out (hostPlan n w h z)).commands = [.srst 0] ∧
        ∃ t, RunsTo (hostReact job u.out (hostPlan n w h z)).commands u t ∧ t.RegsReset ∧ t.out = u.out)

/-- 48_host_usage R209, 95_test_vectors P4 (sanity): the 72 bytes of the PNG of the source's example [1, 2, 3]. -/
def Obligations.PngExampleBytes : Prop :=
  pngStream 3 1 [0x78, 0x01, 0x01, 0x04, 0x00, 0xFB, 0xFF, 0x00, 0x01, 0x02, 0x03, 0x00, 0x0E, 0x00, 0x07] =
    [0x89, 0x50, 0x4E, 0x47, 0x0D, 0x0A, 0x1A, 0x0A,
     0x00, 0x00, 0x00, 0x0D, 0x49, 0x48, 0x44, 0x52, 0x00, 0x00, 0x00, 0x18, 0x00, 0x00, 0x00, 0x01,
     0x01, 0x00, 0x00, 0x00, 0x00, 0xEC, 0xD5, 0x53, 0x06,
     0x00, 0x00, 0x00, 0x0F, 0x49, 0x44, 0x41, 0x54, 0x78, 0x01, 0x01, 0x04, 0x00, 0xFB, 0xFF, 0x00,
     0x01, 0x02, 0x03, 0x00, 0x0E, 0x00, 0x07, 0x2D, 0xA2, 0x33, 0xEC,
     0x00, 0x00, 0x00, 0x00, 0x49, 0x45, 0x4E, 0x44, 0xAE, 0x42, 0x60, 0x82]
end

