-- ==== Sys2Proof/Laws/Crc.lean ====
section
/-! SUPPORT. Laws of the CRC functions (spec/40_crc.md) that later proofs cite. -/

namespace Sys2Proof.Machine

@[simp] theorem updAll_nil (acc : Word) : updAll acc [] = acc := rfl

@[simp] theorem updAll_cons (acc : Word) (b : Byte) (s : List Byte) :
    updAll acc (b :: s) = updAll (upd acc b) s := rfl

/-- The update by a sequence goes piece by piece. -/
theorem updAll_append (acc : Word) (s t : List Byte) : updAll acc (s ++ t) = updAll (updAll acc s) t := by
  induction s generalizing acc with
  | nil => rfl
  | cons b s ih => exact ih (upd acc b)

/-- One more byte at the end is one more update. -/
theorem updAll_concat (acc : Word) (s : List Byte) (b : Byte) :
    updAll acc (s ++ [b]) = upd (updAll acc s) b := updAll_append acc s [b]

/-- The CRC of a sequence is the final XOR of its accumulator. -/
theorem crc32_eq (s : List Byte) : crc32 s = crcFinal (updAll crcInitValue s) := rfl

end Sys2Proof.Machine
end

