-- ==== Sys2Proof/Laws/Decode.lean ====
section
/-! SUPPORT. Laws of the encoding (spec/30_encoding.md) that later proofs cite. -/

namespace Sys2Proof

/-- The eight big-endian bytes of a word make up the word again (30_encoding R90). -/
theorem wordBytes_join (w : CmdWord) :
    (w.extractLsb' 56 8 ++ w.extractLsb' 48 8 ++ w.extractLsb' 40 8 ++ w.extractLsb' 32 8 ++ w.extractLsb' 24 8 ++
      w.extractLsb' 16 8 ++ w.extractLsb' 8 8 ++ w.extractLsb' 0 8 : BitVec 64) = w := by
  apply BitVec.eq_of_getLsbD_eq
  intro i hi
  simp only [BitVec.getLsbD_append, BitVec.getLsbD_extractLsb']
  interval_cases i <;> simp

/-- Decoding the bytes of a word is decoding the word, and leaves the bytes after it. -/
theorem decode_wordBytes (w : CmdWord) (rest : List Byte) :
    decode (wordBytes w ++ rest) =
      match decodeWord w with
      | .instr i => .instr i rest
      | .illegalOpc opc => .illegalOpc opc := by
  cases h : decodeWord w <;> simp [wordBytes, decode, wordBytes_join, h]

end Sys2Proof
end

