-- ==== Sys2Proof/Laws/State.lean ====
section
/-! SUPPORT. What each named update does to each field of the state: one lemma per field. -/

namespace Sys2Proof.Machine

/-! ## `Emit(b)` (spec/00_scope.md R11) -/

@[simp] theorem emit_acc (b : Byte) (s : State) : (emit b s).acc = s.acc := rfl
@[simp] theorem emit_len (b : Byte) (s : State) : (emit b s).len = s.len := rfl
@[simp] theorem emit_count (b : Byte) (s : State) : (emit b s).count = s.count := rfl
@[simp] theorem emit_type (b : Byte) (s : State) : (emit b s).type = s.type := rfl
@[simp] theorem emit_phase (b : Byte) (s : State) : (emit b s).phase = s.phase := rfl
@[simp] theorem emit_errcode (b : Byte) (s : State) : (emit b s).errcode = s.errcode := rfl
@[simp] theorem emit_erropc (b : Byte) (s : State) : (emit b s).erropc = s.erropc := rfl
@[simp] theorem emit_out (b : Byte) (s : State) : (emit b s).out = s.out ++ [b] := rfl
@[simp] theorem emit_inFlight (b : Byte) (s : State) : (emit b s).inFlight = s.inFlight := rfl
@[simp] theorem emit_rst (b : Byte) (s : State) : (emit b s).rst = s.rst := rfl
@[simp] theorem emit_outReady (b : Byte) (s : State) : (emit b s).outReady = s.outReady := rfl
@[simp] theorem emit_moves (b : Byte) (s : State) : (emit b s).moves = s.moves := rfl
@[simp] theorem emit_index (b : Byte) (s : State) : (emit b s).index = s.index := rfl
@[simp] theorem emit_answers (b : Byte) (s : State) : (emit b s).answers = s.answers := rfl
@[simp] theorem emit_draws (b : Byte) (s : State) : (emit b s).draws = s.draws := rfl

/-! ## Entering ERROR (spec/60_exceptions.md R222) -/

@[simp] theorem raiseError_acc (e : BlockError) (opc : BitVec 8) (s : State) : (raiseError e opc s).acc = s.acc := rfl
@[simp] theorem raiseError_len (e : BlockError) (opc : BitVec 8) (s : State) : (raiseError e opc s).len = s.len := rfl
@[simp] theorem raiseError_count (e : BlockError) (opc : BitVec 8) (s : State) : (raiseError e opc s).count = s.count := rfl
@[simp] theorem raiseError_type (e : BlockError) (opc : BitVec 8) (s : State) : (raiseError e opc s).type = s.type := rfl
@[simp] theorem raiseError_phase (e : BlockError) (opc : BitVec 8) (s : State) : (raiseError e opc s).phase = .error := rfl
@[simp] theorem raiseError_errcode (e : BlockError) (opc : BitVec 8) (s : State) : (raiseError e opc s).errcode = errorCode e := rfl
@[simp] theorem raiseError_erropc (e : BlockError) (opc : BitVec 8) (s : State) : (raiseError e opc s).erropc = opc := rfl
@[simp] theorem raiseError_out (e : BlockError) (opc : BitVec 8) (s : State) : (raiseError e opc s).out = s.out := rfl
@[simp] theorem raiseError_inFlight (e : BlockError) (opc : BitVec 8) (s : State) : (raiseError e opc s).inFlight = s.inFlight := rfl
@[simp] theorem raiseError_rst (e : BlockError) (opc : BitVec 8) (s : State) : (raiseError e opc s).rst = s.rst := rfl
@[simp] theorem raiseError_outReady (e : BlockError) (opc : BitVec 8) (s : State) : (raiseError e opc s).outReady = s.outReady := rfl
@[simp] theorem raiseError_moves (e : BlockError) (opc : BitVec 8) (s : State) : (raiseError e opc s).moves = s.moves := rfl
@[simp] theorem raiseError_index (e : BlockError) (opc : BitVec 8) (s : State) : (raiseError e opc s).index = s.index := rfl
@[simp] theorem raiseError_answers (e : BlockError) (opc : BitVec 8) (s : State) : (raiseError e opc s).answers = s.answers := rfl
@[simp] theorem raiseError_draws (e : BlockError) (opc : BitVec 8) (s : State) : (raiseError e opc s).draws = s.draws := rfl

/-! ## The register reset (spec/10_state.md R46) -/

@[simp] theorem resetRegs_acc (s : State) : (resetRegs s).acc = crcInitValue := rfl
@[simp] theorem resetRegs_len (s : State) : (resetRegs s).len = 0 := rfl
@[simp] theorem resetRegs_count (s : State) : (resetRegs s).count = 0 := rfl
@[simp] theorem resetRegs_type (s : State) : (resetRegs s).type = 0 := rfl
@[simp] theorem resetRegs_phase (s : State) : (resetRegs s).phase = .idle := rfl
@[simp] theorem resetRegs_errcode (s : State) : (resetRegs s).errcode = 0 := rfl
@[simp] theorem resetRegs_erropc (s : State) : (resetRegs s).erropc = 0 := rfl
@[simp] theorem resetRegs_out (s : State) : (resetRegs s).out = s.out := rfl
@[simp] theorem resetRegs_inFlight (s : State) : (resetRegs s).inFlight = s.inFlight := rfl
@[simp] theorem resetRegs_rst (s : State) : (resetRegs s).rst = s.rst := rfl
@[simp] theorem resetRegs_outReady (s : State) : (resetRegs s).outReady = s.outReady := rfl
@[simp] theorem resetRegs_moves (s : State) : (resetRegs s).moves = s.moves := rfl
@[simp] theorem resetRegs_index (s : State) : (resetRegs s).index = s.index := rfl
@[simp] theorem resetRegs_answers (s : State) : (resetRegs s).answers = s.answers := rfl
@[simp] theorem resetRegs_draws (s : State) : (resetRegs s).draws = s.draws := rfl

/-! ## Emitting a byte into the CRC (spec/41_framer.md R152, R153) -/

@[simp] theorem absorb_acc (b : Byte) (s : State) : (absorb b s).acc = upd s.acc b := rfl
@[simp] theorem absorb_len (b : Byte) (s : State) : (absorb b s).len = s.len := rfl
@[simp] theorem absorb_count (b : Byte) (s : State) : (absorb b s).count = s.count := rfl
@[simp] theorem absorb_type (b : Byte) (s : State) : (absorb b s).type = s.type := rfl
@[simp] theorem absorb_phase (b : Byte) (s : State) : (absorb b s).phase = s.phase := rfl
@[simp] theorem absorb_errcode (b : Byte) (s : State) : (absorb b s).errcode = s.errcode := rfl
@[simp] theorem absorb_erropc (b : Byte) (s : State) : (absorb b s).erropc = s.erropc := rfl
@[simp] theorem absorb_out (b : Byte) (s : State) : (absorb b s).out = s.out ++ [b] := rfl
@[simp] theorem absorb_inFlight (b : Byte) (s : State) : (absorb b s).inFlight = s.inFlight := rfl
@[simp] theorem absorb_rst (b : Byte) (s : State) : (absorb b s).rst = s.rst := rfl
@[simp] theorem absorb_outReady (b : Byte) (s : State) : (absorb b s).outReady = s.outReady := rfl
@[simp] theorem absorb_moves (b : Byte) (s : State) : (absorb b s).moves = s.moves := rfl
@[simp] theorem absorb_index (b : Byte) (s : State) : (absorb b s).index = s.index := rfl
@[simp] theorem absorb_answers (b : Byte) (s : State) : (absorb b s).answers = s.answers := rfl
@[simp] theorem absorb_draws (b : Byte) (s : State) : (absorb b s).draws = s.draws := rfl

/-! ## An answered read (spec/42_control.md R182) -/

@[simp] theorem answerRead_acc (a : RegAddr) (s : State) : (answerRead a s).acc = s.acc := rfl
@[simp] theorem answerRead_len (a : RegAddr) (s : State) : (answerRead a s).len = s.len := rfl
@[simp] theorem answerRead_count (a : RegAddr) (s : State) : (answerRead a s).count = s.count := rfl
@[simp] theorem answerRead_type (a : RegAddr) (s : State) : (answerRead a s).type = s.type := rfl
@[simp] theorem answerRead_phase (a : RegAddr) (s : State) : (answerRead a s).phase = s.phase := rfl
@[simp] theorem answerRead_errcode (a : RegAddr) (s : State) : (answerRead a s).errcode = s.errcode := rfl
@[simp] theorem answerRead_erropc (a : RegAddr) (s : State) : (answerRead a s).erropc = s.erropc := rfl
@[simp] theorem answerRead_out (a : RegAddr) (s : State) : (answerRead a s).out = s.out := rfl
@[simp] theorem answerRead_inFlight (a : RegAddr) (s : State) : (answerRead a s).inFlight = s.inFlight := rfl
@[simp] theorem answerRead_rst (a : RegAddr) (s : State) : (answerRead a s).rst = s.rst := rfl
@[simp] theorem answerRead_outReady (a : RegAddr) (s : State) : (answerRead a s).outReady = s.outReady := rfl
@[simp] theorem answerRead_moves (a : RegAddr) (s : State) : (answerRead a s).moves = s.moves := rfl
@[simp] theorem answerRead_index (a : RegAddr) (s : State) : (answerRead a s).index = s.index := rfl
@[simp] theorem answerRead_answers (a : RegAddr) (s : State) : (answerRead a s).answers = s.answers ++ [(a, readReg s a)] := rfl
@[simp] theorem answerRead_draws (a : RegAddr) (s : State) : (answerRead a s).draws = s.draws := rfl

/-! ## `rst` asserted (spec/70_reset_and_hazards.md R262) -/

@[simp] theorem assertRst_acc (s : State) : (assertRst s).acc = crcInitValue := rfl
@[simp] theorem assertRst_len (s : State) : (assertRst s).len = 0 := rfl
@[simp] theorem assertRst_count (s : State) : (assertRst s).count = 0 := rfl
@[simp] theorem assertRst_type (s : State) : (assertRst s).type = 0 := rfl
@[simp] theorem assertRst_phase (s : State) : (assertRst s).phase = .idle := rfl
@[simp] theorem assertRst_errcode (s : State) : (assertRst s).errcode = 0 := rfl
@[simp] theorem assertRst_erropc (s : State) : (assertRst s).erropc = 0 := rfl
@[simp] theorem assertRst_out (s : State) : (assertRst s).out = s.out ++ s.inFlight.take (Config.tornBytes s.draws) := rfl
@[simp] theorem assertRst_inFlight (s : State) : (assertRst s).inFlight = [] := rfl
@[simp] theorem assertRst_rst (s : State) : (assertRst s).rst = true := rfl
@[simp] theorem assertRst_outReady (s : State) : (assertRst s).outReady = s.outReady := rfl
@[simp] theorem assertRst_moves (s : State) : (assertRst s).moves = s.moves := rfl
@[simp] theorem assertRst_index (s : State) : (assertRst s).index = s.index := rfl
@[simp] theorem assertRst_answers (s : State) : (assertRst s).answers = s.answers := rfl
@[simp] theorem assertRst_draws (s : State) : (assertRst s).draws = s.draws + 1 := rfl

/-! ## A fall of `out_ready` (spec/10_state.md R24) -/

@[simp] theorem lowerOutReady_acc (s : State) : (lowerOutReady s).acc = s.acc := rfl
@[simp] theorem lowerOutReady_len (s : State) : (lowerOutReady s).len = s.len := rfl
@[simp] theorem lowerOutReady_count (s : State) : (lowerOutReady s).count = s.count := rfl
@[simp] theorem lowerOutReady_type (s : State) : (lowerOutReady s).type = s.type := rfl
@[simp] theorem lowerOutReady_phase (s : State) : (lowerOutReady s).phase = s.phase := rfl
@[simp] theorem lowerOutReady_errcode (s : State) : (lowerOutReady s).errcode = s.errcode := rfl
@[simp] theorem lowerOutReady_erropc (s : State) : (lowerOutReady s).erropc = s.erropc := rfl
@[simp] theorem lowerOutReady_out (s : State) : (lowerOutReady s).out = s.out ++ s.inFlight.take (if s.outReady then Config.tornBytes s.draws else 0) := rfl
@[simp] theorem lowerOutReady_inFlight (s : State) : (lowerOutReady s).inFlight = s.inFlight.drop (if s.outReady then Config.tornBytes s.draws else 0) := rfl
@[simp] theorem lowerOutReady_rst (s : State) : (lowerOutReady s).rst = s.rst := rfl
@[simp] theorem lowerOutReady_outReady (s : State) : (lowerOutReady s).outReady = false := rfl
@[simp] theorem lowerOutReady_moves (s : State) : (lowerOutReady s).moves = s.moves := rfl
@[simp] theorem lowerOutReady_index (s : State) : (lowerOutReady s).index = s.index := rfl
@[simp] theorem lowerOutReady_answers (s : State) : (lowerOutReady s).answers = s.answers := rfl
@[simp] theorem lowerOutReady_draws (s : State) : (lowerOutReady s).draws = s.draws + 1 := rfl

/-! ## Transfer to a ready consumer (spec/10_state.md R24); for `out` and `inFlight` see `deliver_cases` -/

@[simp] theorem deliver_acc (s : State) : (deliver s).acc = s.acc := by
  unfold deliver; split <;> rfl
@[simp] theorem deliver_len (s : State) : (deliver s).len = s.len := by
  unfold deliver; split <;> rfl
@[simp] theorem deliver_count (s : State) : (deliver s).count = s.count := by
  unfold deliver; split <;> rfl
@[simp] theorem deliver_type (s : State) : (deliver s).type = s.type := by
  unfold deliver; split <;> rfl
@[simp] theorem deliver_phase (s : State) : (deliver s).phase = s.phase := by
  unfold deliver; split <;> rfl
@[simp] theorem deliver_errcode (s : State) : (deliver s).errcode = s.errcode := by
  unfold deliver; split <;> rfl
@[simp] theorem deliver_erropc (s : State) : (deliver s).erropc = s.erropc := by
  unfold deliver; split <;> rfl
@[simp] theorem deliver_rst (s : State) : (deliver s).rst = s.rst := by
  unfold deliver; split <;> rfl
@[simp] theorem deliver_outReady (s : State) : (deliver s).outReady = s.outReady := by
  unfold deliver; split <;> rfl
@[simp] theorem deliver_moves (s : State) : (deliver s).moves = s.moves := by
  unfold deliver; split <;> rfl
@[simp] theorem deliver_index (s : State) : (deliver s).index = s.index := by
  unfold deliver; split <;> rfl
@[simp] theorem deliver_answers (s : State) : (deliver s).answers = s.answers := by
  unfold deliver; split <;> rfl
@[simp] theorem deliver_draws (s : State) : (deliver s).draws = s.draws := by
  unfold deliver; split <;> rfl

/-! ## What stands around a command (spec/10_state.md R22, R40); for `out` and `inFlight` see `offer_ready`, `offer_held` -/

@[simp] theorem offer_acc (s t : State) : (offer s t).acc = t.acc := by
  simp [offer]
@[simp] theorem offer_len (s t : State) : (offer s t).len = t.len := by
  simp [offer]
@[simp] theorem offer_count (s t : State) : (offer s t).count = t.count := by
  simp [offer]
@[simp] theorem offer_type (s t : State) : (offer s t).type = t.type := by
  simp [offer]
@[simp] theorem offer_phase (s t : State) : (offer s t).phase = t.phase := by
  simp [offer]
@[simp] theorem offer_errcode (s t : State) : (offer s t).errcode = t.errcode := by
  simp [offer]
@[simp] theorem offer_erropc (s t : State) : (offer s t).erropc = t.erropc := by
  simp [offer]
@[simp] theorem offer_rst (s t : State) : (offer s t).rst = t.rst := by
  simp [offer]
@[simp] theorem offer_outReady (s t : State) : (offer s t).outReady = t.outReady := by
  simp [offer]
@[simp] theorem offer_moves (s t : State) : (offer s t).moves = t.moves := by
  simp [offer]
@[simp] theorem offer_index (s t : State) : (offer s t).index = t.index + 1 := by
  simp [offer]
@[simp] theorem offer_answers (s t : State) : (offer s t).answers = t.answers := by
  simp [offer]
@[simp] theorem offer_draws (s t : State) : (offer s t).draws = t.draws := by
  simp [offer]

/-! ## A presented command (spec/10_state.md R22) -/

@[simp] theorem presentNext_acc (w : CmdWord) (s : State) : (presentNext w s).acc = s.acc := rfl
@[simp] theorem presentNext_len (w : CmdWord) (s : State) : (presentNext w s).len = s.len := rfl
@[simp] theorem presentNext_count (w : CmdWord) (s : State) : (presentNext w s).count = s.count := rfl
@[simp] theorem presentNext_type (w : CmdWord) (s : State) : (presentNext w s).type = s.type := rfl
@[simp] theorem presentNext_phase (w : CmdWord) (s : State) : (presentNext w s).phase = s.phase := rfl
@[simp] theorem presentNext_errcode (w : CmdWord) (s : State) : (presentNext w s).errcode = s.errcode := rfl
@[simp] theorem presentNext_erropc (w : CmdWord) (s : State) : (presentNext w s).erropc = s.erropc := rfl
@[simp] theorem presentNext_out (w : CmdWord) (s : State) : (presentNext w s).out = s.out := rfl
@[simp] theorem presentNext_inFlight (w : CmdWord) (s : State) : (presentNext w s).inFlight = [] := rfl
@[simp] theorem presentNext_rst (w : CmdWord) (s : State) : (presentNext w s).rst = false := rfl
@[simp] theorem presentNext_outReady (w : CmdWord) (s : State) : (presentNext w s).outReady = s.outReady := rfl
@[simp] theorem presentNext_moves (w : CmdWord) (s : State) : (presentNext w s).moves = .command w :: s.moves := rfl
@[simp] theorem presentNext_index (w : CmdWord) (s : State) : (presentNext w s).index = s.index := rfl
@[simp] theorem presentNext_answers (w : CmdWord) (s : State) : (presentNext w s).answers = s.answers := rfl
@[simp] theorem presentNext_draws (w : CmdWord) (s : State) : (presentNext w s).draws = s.draws := rfl

end Sys2Proof.Machine
end

