-- ==== Sys2Proof/Laws/Ops.lean ====
section
/-! SUPPORT. What each shared operation can do, said once: emitting and absorbing a sequence, FinishChunk, the effects
of the framer's commands, the order of checks, and that every command answers a next state. -/

namespace Sys2Proof.Machine

/-- Emitting a sequence appends it to OUT and does nothing else. -/
theorem emitAll_eq (bs : List Byte) (s : State) : emitAll bs s = { s with out := s.out ++ bs } := by
  induction bs generalizing s with
  | nil => simp [emitAll]
  | cons b bs ih => simp [emitAll, ih, emit]

/-- Absorbing a sequence appends it to OUT and folds it into ACC. -/
theorem absorbAll_eq (bs : List Byte) (s : State) :
    absorbAll bs s = { s with out := s.out ++ bs, acc := updAll s.acc bs } := by
  induction bs generalizing s with
  | nil => simp [absorbAll]
  | cons b bs ih => simp [absorbAll, ih, absorb, emit]

/-- FinishChunk appends the CRC field, and leaves ACC (41_framer R154). -/
theorem finishChunk_eq (s : State) :
    finishChunk s = { s with out := s.out ++ be32 (crcFinal s.acc), count := 0, phase := .idle } := by
  simp [finishChunk, emitBE32, emitAll_eq]

/-- FRM_LEN's effect (41_framer R151). -/
theorem frmLenEffect_eq (l : Word) (s : State) :
    frmLenEffect l s = { s with len := l, out := s.out ++ be32 l, phase := .lenset } := by
  simp [frmLenEffect, emitBE32, emitAll_eq]

/-- FRM_TYPE's effect on an empty payload (41_framer R152, R160). -/
theorem frmTypeEffect_empty (t : Word) (s : State) (h : s.len = 0) :
    frmTypeEffect t s =
      { s with
        type := t
        acc := updAll crcInitValue (bytes4 t)
        out := s.out ++ bytes4 t ++ be32 (crc32 (bytes4 t))
        count := 0
        phase := .idle } := by
  simp [frmTypeEffect, absorbAll_eq, h, finishChunk_eq, crc32_eq]

/-- FRM_TYPE's effect when payload bytes are to follow (41_framer R152). -/
theorem frmTypeEffect_payload (t : Word) (s : State) (h : s.len ≠ 0) :
    frmTypeEffect t s =
      { s with
        type := t
        acc := updAll crcInitValue (bytes4 t)
        out := s.out ++ bytes4 t
        count := s.len
        phase := .payload } := by
  simp only [frmTypeEffect, absorbAll_eq, if_neg h]

/-- FRM_BYTE's effect on the last payload byte (41_framer R153, R154). -/
theorem frmByteEffect_last (b : Byte) (s : State) (h : s.count - 1 = 0) :
    frmByteEffect b s =
      { s with
        acc := upd s.acc b
        out := s.out ++ [b] ++ be32 (crcFinal (upd s.acc b))
        count := 0
        phase := .idle } := by
  simp only [frmByteEffect, if_pos h, finishChunk_eq]
  rfl

/-- FRM_BYTE's effect on any other payload byte (41_framer R153). -/
theorem frmByteEffect_more (b : Byte) (s : State) (h : s.count - 1 ≠ 0) :
    frmByteEffect b s = { s with acc := upd s.acc b, out := s.out ++ [b], count := s.count - 1 } := by
  simp only [frmByteEffect, if_neg h]
  rfl

/-- Everything a checked command can do (60_exceptions R223, R224): one of four, and always a next state. -/
theorem checked_cases (opc : BitVec 8) (ok : Bool) (wanted : Phase) (e : BlockError) (f : State → State) (s : State) :
    (s.phase = .error ∧ checked opc ok wanted e f s = .next s) ∨
    (s.phase ≠ .error ∧ ok = false ∧ checked opc ok wanted e f s = .next (raiseError .reserved opc s)) ∨
    (s.phase ≠ .error ∧ ok = true ∧ s.phase ≠ wanted ∧ checked opc ok wanted e f s = .next (raiseError e opc s)) ∨
    (s.phase ≠ .error ∧ ok = true ∧ s.phase = wanted ∧ checked opc ok wanted e f s = .next (f s)) := by
  by_cases hp : s.phase = .error
  · simp [checked, hp]
  · cases ok with
    | false => simp [checked, hp]
    | true => by_cases hw : s.phase = wanted <;> simp_all [checked]

/-- Everything SRST can do (42_control R180). -/
theorem execSrst_cases (rsv : BitVec 56) (s : State) :
    (rsv = 0 ∧ execSrst rsv s = .next (resetRegs s)) ∨
    (rsv ≠ 0 ∧ s.phase = .error ∧ execSrst rsv s = .next s) ∨
    (rsv ≠ 0 ∧ s.phase ≠ .error ∧ execSrst rsv s = .next (raiseError .reserved opcSrst s)) := by
  by_cases hr : rsv = 0
  · exact .inl ⟨hr, by simp [execSrst, reservedClear, hr]⟩
  · have hc : reservedClear rsv = false := by simpa [reservedClear] using hr
    by_cases hp : s.phase = .error
    · exact .inr (.inl ⟨hr, hp, by simp [execSrst, hc, hp]⟩)
    · exact .inr (.inr ⟨hr, hp, by simp [execSrst, hc, hp]⟩)

/-- The reserved-bit check is the equation it tests. -/
@[simp] theorem reservedClear_iff {n : Nat} (rsv : BitVec n) : reservedClear rsv = true ↔ rsv = 0 := by
  simp [reservedClear]

/-- The reserved-bit check fails exactly on a set bit. -/
theorem reservedClear_false_iff {n : Nat} (rsv : BitVec n) : reservedClear rsv = false ↔ rsv ≠ 0 := by
  simp [reservedClear]

end Sys2Proof.Machine
end

