-- ==== Sys2Proof/Laws/PerInstr.lean ====
section
/-! SUPPORT. Statements made once per constructor of `Instr`. -/

namespace Sys2Proof.Laws.OpcodeField

/-- Bits [63:56] of a command's word are its OPC (30_encoding R90, R91). -/
def Statement (i : Instr) : Prop := (encodeWord i).extractLsb' 56 8 = i.opcode

/-- The high 8 bits of a concatenation of 8 and 56 bits. -/
theorem high_of_append (o : BitVec 8) (r : BitVec 56) : (o ++ r : BitVec 64).extractLsb' 56 8 = o := by
  apply BitVec.eq_of_getLsbD_eq
  intro i hi
  simp only [BitVec.getLsbD_extractLsb', BitVec.getLsbD_append, hi, decide_true, Bool.true_and]
  have h1 : ¬56 + i < 56 := by omega
  have h2 : 56 + i - 56 = i := by omega
  simp [h1, h2]

/-- The high 8 bits of a concatenation of 8, `m` and `n` bits. -/
theorem high_of_append3 (m n : Nat) (h : 8 + m + n = 64) (o : BitVec 8) (r : BitVec m) (b : BitVec n) :
    (BitVec.cast h (o ++ r ++ b)).extractLsb' 56 8 = o := by
  apply BitVec.eq_of_getLsbD_eq
  intro i hi
  simp only [BitVec.getLsbD_extractLsb', BitVec.getLsbD_cast, BitVec.getLsbD_append, hi, decide_true, Bool.true_and]
  have h1 : ¬56 + i < n := by omega
  have h2 : ¬56 + i - n < m := by omega
  have h3 : 56 + i - n - m = i := by omega
  simp [h1, h2, h3]

theorem crcInit (rsv : BitVec 56) : Statement (.crcInit rsv) := high_of_append _ _
theorem crcByte (rsv : BitVec 48) (b : Byte) : Statement (.crcByte rsv b) := high_of_append3 48 8 rfl _ _ _
theorem frmLen (rsv : BitVec 24) (l : Word) : Statement (.frmLen rsv l) := high_of_append3 24 32 rfl _ _ _
theorem frmType (rsv : BitVec 24) (t : Word) : Statement (.frmType rsv t) := high_of_append3 24 32 rfl _ _ _
theorem frmByte (rsv : BitVec 48) (b : Byte) : Statement (.frmByte rsv b) := high_of_append3 48 8 rfl _ _ _
theorem srst (rsv : BitVec 56) : Statement (.srst rsv) := high_of_append _ _

end Sys2Proof.Laws.OpcodeField
end

