-- ==== Sys2Proof/Laws/Ports.lean ====
section
/-! SUPPORT. What the ports can do, said once: which move comes next, how a command's bytes are offered, and the forms
of one step. -/

namespace Sys2Proof.Machine

/-- With `cmd_ready` high the first move comes next. -/
@[simp] theorem nextMove_ready_cons (m : HostMove) (ms : List HostMove) : nextMove true (m :: ms) = some (m, ms) := by
  cases m <;> simp [nextMove, moveEnabled]

/-- The move that comes next is enabled, the moves before it wait, and the moves left keep their order. -/
theorem nextMove_some {ready : Bool} {ms : List HostMove} {m : HostMove} {rest : List HostMove}
    (h : nextMove ready ms = some (m, rest)) :
    moveEnabled ready m = true ∧ ∃ pre post, ms = pre ++ m :: post ∧ rest = pre ++ post ∧
      ∀ x ∈ pre, moveEnabled ready x = false := by
  induction ms generalizing rest with
  | nil => simp [nextMove] at h
  | cons x xs ih =>
    by_cases hx : moveEnabled ready x = true
    · simp only [nextMove, hx, if_true, Option.some.injEq, Prod.mk.injEq] at h
      obtain ⟨rfl, rfl⟩ := h
      exact ⟨hx, [], xs, rfl, rfl, by simp⟩
    · cases hn : nextMove ready xs with
      | none => simp [nextMove, hx, hn] at h
      | some y =>
        obtain ⟨z, r⟩ := y
        simp only [nextMove, hx, hn] at h
        obtain ⟨rfl, rfl⟩ := h
        obtain ⟨hm, pre, post, e1, e2, hpre⟩ := ih hn
        refine ⟨hm, x :: pre, post, by simp [e1], by simp [e2], ?_⟩
        intro y hy
        rcases List.mem_cons.mp hy with rfl | hy
        · simpa using hx
        · exact hpre y hy

/-- No move comes next exactly when all of them wait. -/
theorem nextMove_none_iff (ready : Bool) (ms : List HostMove) :
    nextMove ready ms = none ↔ ∀ m ∈ ms, moveEnabled ready m = false := by
  induction ms with
  | nil => simp [nextMove]
  | cons x xs ih =>
    by_cases hx : moveEnabled ready x = true
    · simp [nextMove, hx]
    · cases hn : nextMove ready xs with
      | none => simp_all [nextMove]
      | some y => simp_all [nextMove]

/-- `cmd_ready` is high exactly when nothing is in flight and `rst` is low (10_state R22, 70_reset R260). -/
theorem cmdReady_iff (s : State) : cmdReady s = true ↔ s.inFlight = [] ∧ s.rst = false := by
  simp [cmdReady]

/-- Everything `deliver` can do: all bytes in flight go out, with a ready consumer and a host that does not cut the
transfer, or nothing changes. -/
theorem deliver_cases (s : State) :
    (s.outReady = true ∧ cutsTransfer s.moves = false ∧
        deliver s = { s with out := s.out ++ s.inFlight, inFlight := [] }) ∨
      ((s.outReady = false ∨ cutsTransfer s.moves = true) ∧ deliver s = s) := by
  cases ho : s.outReady <;> cases hc : cutsTransfer s.moves <;> simp [deliver, ho, hc]

/-- `deliver` moves bytes from flight to OUT, and loses none. -/
theorem deliver_stream (s : State) : (deliver s).out ++ (deliver s).inFlight = s.out ++ s.inFlight := by
  rcases deliver_cases s with ⟨_, _, h⟩ | ⟨_, h⟩ <;> rw [h]
  simp

/-- With nothing in flight `deliver` changes nothing. -/
theorem deliver_quiet (s : State) (h : s.inFlight = []) : deliver s = s := by
  rcases deliver_cases s with ⟨_, _, e⟩ | ⟨_, e⟩
  · rw [e]; cases s; simp_all
  · exact e

/-- With the consumer ready, and no cut, a command's bytes are on OUT when its step ends. -/
theorem offer_ready (s t : State) (bs : List Byte) (h : t.outReady = true) (hc : cutsTransfer t.moves = false)
    (hb : t.out = s.out ++ bs) : offer s t = { t with index := t.index + 1, inFlight := [] } := by
  simp [offer, deliver, h, hc, hb]

/-- With the consumer not ready, or a host that cuts the transfer, they are in flight. -/
theorem offer_held (s t : State) (bs : List Byte) (h : t.outReady = false ∨ cutsTransfer t.moves = true)
    (hb : t.out = s.out ++ bs) : offer s t = { t with index := t.index + 1, out := s.out, inFlight := bs } := by
  rcases h with h | h <;> simp [offer, deliver, h, hb]

/-- A command that emits nothing leaves OUT and nothing in flight, whatever the consumer does. -/
theorem offer_silent (s t : State) (hb : t.out = s.out) (hf : t.inFlight = []) :
    offer s t = { t with index := t.index + 1 } := by
  rw [offer, deliver_quiet]
  · cases t; simp_all
  · simp [hb]

/-- What a fall of `out_ready` does to the bytes: some prefix has gone out, the rest stays in flight. -/
theorem lowerOutReady_prefix (s : State) : ∃ j, j ≤ s.inFlight.length ∧ (s.outReady = false → j = 0) ∧
    lowerOutReady s =
      { s with
        outReady := false, out := s.out ++ s.inFlight.take j, inFlight := s.inFlight.drop j
        draws := s.draws + 1 } := by
  refine ⟨min (if s.outReady then Config.tornBytes s.draws else 0) s.inFlight.length, by omega, ?_, ?_⟩
  · intro h; simp [h]
  · unfold lowerOutReady
    generalize (if s.outReady = true then Config.tornBytes s.draws else 0) = n
    by_cases h : n ≤ s.inFlight.length
    · simp [Nat.min_eq_left h]
    · have h' : s.inFlight.length ≤ n := by omega
      simp [Nat.min_eq_right h', List.take_of_length_le h', List.drop_of_length_le h']

/-- One step when the first move is a command and CRCF is ready. -/
theorem step_command (s : State) (w : CmdWord) (rest : List HostMove) (hm : s.moves = .command w :: rest)
    (hf : s.inFlight = []) (hr : s.rst = false) : step s = accept w { s with moves := rest } := by
  simp [step, hostTurn, hm, (cmdReady_iff s).mpr ⟨hf, hr⟩, perform]

/-- One step when the first move is a read and CRCF is ready. -/
theorem step_read (s : State) (a : RegAddr) (rest : List HostMove) (hm : s.moves = .read a :: rest)
    (hf : s.inFlight = []) (hr : s.rst = false) : step s = .next (answerRead a { s with moves := rest }) := by
  simp [step, hostTurn, hm, (cmdReady_iff s).mpr ⟨hf, hr⟩, perform]

/-- Everything one step can do: the host's next move takes place, or none can. -/
theorem step_cases (s : State) :
    (∃ m rest, nextMove (cmdReady s) s.moves = some (m, rest) ∧ step s = perform m { s with moves := rest }) ∨
    (nextMove (cmdReady s) s.moves = none ∧ step s = holdState s) := by
  cases h : nextMove (cmdReady s) s.moves with
  | none => exact .inr ⟨rfl, by simp [step, hostTurn, h]⟩
  | some x => exact .inl ⟨x.1, x.2, rfl, by simp [step, hostTurn, h]⟩

end Sys2Proof.Machine
end

