-- ==== Sys2Proof/Tests/Slice0.lean ====
section
/-! SUPPORT. Tests of the model. Expected values come from spec/95_test_vectors.md (the vector is named) or from the
rule named. The `test_witness_…` theorems show, for each obligation with hypotheses, a concrete input that meets them. -/

namespace Sys2Proof.Tests

open Sys2Proof Sys2Proof.Machine

/-! ## States -/

/-- The reset state with the host's moves `ms`. -/
def fresh (ms : List HostMove) : State := { State.reset with moves := ms }

/-- After `frm.len 1` from reset (V-FRM-09, first word). -/
def lensetState : State := { State.reset with len := 1, phase := .lenset, out := [0, 0, 0, 1] }

/-- After `frm.len 0` from reset (V-FRM-02, first word). -/
def lensetEmpty : State := { State.reset with phase := .lenset, out := [0, 0, 0, 0] }

/-- After `frm.len 1; frm.type "IDAT"` from reset (V-FRM-10, before its third word). -/
def payloadState : State :=
  { State.reset with
    acc := 0xCA50F9E1, len := 1, count := 1, type := 0x49444154, phase := .payload
    out := [0, 0, 0, 1, 0x49, 0x44, 0x41, 0x54] }

/-- After `frm.len 2; frm.type "IDAT"` from reset (V-FRM-05, second word). -/
def payloadTwo : State :=
  { State.reset with
    acc := 0xCA50F9E1, len := 2, count := 2, type := 0x49444154, phase := .payload
    out := [0, 0, 0, 2, 0x49, 0x44, 0x41, 0x54] }

/-- After a FRM_BYTE in IDLE (V-FRM-07). -/
def errorState : State := { State.reset with phase := .error, errcode := 6, erropc := 0x12 }

/-- The reset state with a consumer that is not ready, and the host's moves `ms`. -/
def held (ms : List HostMove) : State := { State.reset with outReady := false, moves := ms }

/-- `frm.len 13` is in progress, its bytes in flight, and the host's moves are `ms`. -/
def midCommand (ms : List HostMove) : State :=
  { State.reset with len := 13, phase := .lenset, inFlight := [0, 0, 0, 13], outReady := false, moves := ms }

/-- The outcome is the next state `t`. (`Host.Outcome` has no decidable equality; `State` has.) -/
def nextIs (o : Host.Outcome State Fault Refusal) (t : State) : Bool :=
  match o with
  | .next s => s == t
  | .fault _ => false
  | .refused _ => false

theorem of_nextIs {o : Host.Outcome State Fault Refusal} {t : State} (h : nextIs o t = true) : o = .next t := by
  cases o with
  | next s => rw [eq_of_beq h]
  | fault r => exact absurd h Bool.false_ne_true
  | refused r => exact absurd h Bool.false_ne_true

/-! ## WellFormed (30_encoding R93, R98) -/

theorem test_wellFormed_zero :
    ([.crcInit 0, .crcByte 0 0xFF, .frmLen 0 0xFFFFFFFF, .frmType 0 0xFFFFFFFF, .frmByte 0 0xFF, .srst 0] :
      List Instr).all Instr.WellFormed = true := by decide
theorem test_illFormed_crcInit : (Instr.crcInit 1).WellFormed = false := by decide
theorem test_illFormed_crcByte : (Instr.crcByte 1 0).WellFormed = false := by decide
theorem test_illFormed_frmLen : (Instr.frmLen 0x800000 0).WellFormed = false := by decide
theorem test_illFormed_frmType : (Instr.frmType 1 0).WellFormed = false := by decide
theorem test_illFormed_frmByte : (Instr.frmByte 0x800000000000 0).WellFormed = false := by decide
theorem test_illFormed_srst : (Instr.srst 0x80000000000000).WellFormed = false := by decide

/-! ## Decode and encode (30_encoding R90, R93, R95) -/

theorem test_decode_crcInit : decode [0x01, 0, 0, 0, 0, 0, 0, 0] = .instr (.crcInit 0) [] := by decide
theorem test_decode_crcByte : decode [0x02, 0, 0, 0, 0, 0, 0, 0x61, 7] = .instr (.crcByte 0 0x61) [7] := by decide
theorem test_decode_frmLen : decode [0x10, 0, 0, 0, 0x01, 0x02, 0x03, 0x0D] = .instr (.frmLen 0 0x0102030D) [] := by
  decide
theorem test_decode_frmType :
    decode [0x11, 0, 0, 0, 0x49, 0x48, 0x44, 0x52] = .instr (.frmType 0 0x49484452) [] := by decide
theorem test_decode_frmByte : decode [0x12, 0, 0, 0, 0, 0, 0, 0xFF] = .instr (.frmByte 0 0xFF) [] := by decide
theorem test_decode_srst : decode [0xFF, 0, 0, 0, 0, 0, 0, 0] = .instr (.srst 0) [] := by decide
/-- V-CCMD-06: RSV[32] of a form B word is the lowest bit above OPD. -/
theorem test_decode_rsv_formB : decodeWord 0x0200000100000000 = .instr (.crcByte 0x1000000 0) := by decide
/-- V-FRM-11: RSV[55] of a form L word. -/
theorem test_decode_rsv_formL : decodeWord 0x1080000000000000 = .instr (.frmLen 0x800000 0) := by decide
/-- V-CTL-07: RSV[32] of a form Z word. -/
theorem test_decode_rsv_formZ : decodeWord 0xFF00000100000000 = .instr (.srst 0x100000000) := by decide
/-- R97: the neighbours of the six opcodes are illegal. -/
theorem test_decode_illegal :
    ([0x00, 0x03, 0x0F, 0x13, 0xFE] : List (BitVec 8)).all
      (fun o => decode [o, 0, 0, 0, 0, 0, 0, 0] == .illegalOpc o) = true := by decide
/-- R100: seven bytes are no command (log entry 20). -/
theorem test_decode_truncated : decode [0x01, 0, 0, 0, 0, 0, 0] = .truncated := by decide
/-- R102's six examples. -/
theorem test_encodeWord :
    ([.crcInit 0, .crcByte 0 0x31, .frmLen 0 13, .frmType 0 0x49484452, .frmByte 0 0xFF, .srst 0] :
      List Instr).map encodeWord =
    [0x0100000000000000, 0x0200000000000031, 0x100000000000000D, 0x1100000049484452, 0x12000000000000FF,
      0xFF00000000000000] := by decide
theorem test_encode_bytes : encode (.frmType 0 0x49484452) = [0x11, 0, 0, 0, 0x49, 0x48, 0x44, 0x52] := by decide
theorem test_decodeTableWord : decodeTableWord 64 0x1100000049484452 = some (.frmType 0 0x49484452) := by decide
theorem test_decodeTableWord_illegal : decodeTableWord 64 0 = none := by decide
theorem test_decodeTableWord_short : decodeTableWord 8 0xFFFFFF12 = none := by decide

/-! ## The CRC engine (40_crc) -/

/-- V-TAB-02, V-TAB-05, V-TAB-07, V-TAB-10, V-TAB-12. -/
theorem test_table :
    ([0x01, 0x10, 0x55, 0xAA, 0xFF] : List Byte).map table =
      [0x77073096, 0x1DB71064, 0x1B01A57B, 0x36034AF6, 0x2D02EF8D] := by decide
/-- V-UPD-02, V-UPD-05, V-UPD-07. -/
theorem test_upd :
    upd 0xFFFFFFFF 0x31 = 0x7C231048 ∧ upd 0 0x80 = 0xEDB88320 ∧ upd 0x12345678 0 = 0x5ECCCD58 := by decide
/-- V-CRC-04, V-CRC-05, V-CRC-06, V-CRC-08. -/
theorem test_crc32 :
    crc32 [0x61, 0x62, 0x63] = 0x352441C2 ∧ crc32 [0] = 0xD202EF8D ∧ crc32 [0xFF] = 0xFF000000 ∧
      crc32 [0xFF, 0xFF, 0xFF, 0xFF] = 0xFFFFFFFF := by decide +kernel
/-- R126 against V-UPD-07 and V-UPD-08. -/
theorem test_updSerial : updSerial 0x12345678 0 = 0x5ECCCD58 ∧ updSerial 0xFFFFFFFF 0x49 = 0x22FDE946 := by
  decide +kernel

/-! ## Commands -/

/-- R128's example. -/
theorem test_crcInit :
    exec (.crcInit 0) { State.reset with acc := 0x340BC6D9 } = .next { State.reset with acc := 0xFFFFFFFF } :=
  of_nextIs (by decide)
/-- V-CCMD-04: STATUS = 0x123. -/
theorem test_crcInit_reserved :
    exec (.crcInit 1) State.reset =
      .next { State.reset with phase := .error, errcode := 2, erropc := 0x01 } :=
  of_nextIs (by decide)
/-- V-CCMD-02. -/
theorem test_crcByte :
    exec (.crcByte 0 0x61) State.reset = .next { State.reset with acc := 0x174841BC } :=
  of_nextIs (by decide +kernel)
/-- V-DEC-05: code 2 beats code 3. -/
theorem test_crcByte_precedence :
    exec (.crcByte 1 0) payloadState =
      .next { payloadState with phase := .error, errcode := 2, erropc := 0x02 } :=
  of_nextIs (by decide)
/-- V-FRM-01. -/
theorem test_frmLen :
    exec (.frmLen 0 13) State.reset =
      .next { State.reset with len := 13, phase := .lenset, out := [0, 0, 0, 0x0D] } :=
  of_nextIs (by decide)
/-- V-FRM-09: STATUS = 0x1043. -/
theorem test_frmLen_sequence :
    exec (.frmLen 0 1) lensetState =
      .next { lensetState with phase := .error, errcode := 4, erropc := 0x10 } :=
  of_nextIs (by decide)
/-- V-FRM-02, second word. -/
theorem test_frmType_empty :
    exec (.frmType 0 0x49454E44) lensetEmpty =
      .next { State.reset with
        acc := 0x51BD9F7D, type := 0x49454E44
        out := [0, 0, 0, 0, 0x49, 0x45, 0x4E, 0x44, 0xAE, 0x42, 0x60, 0x82] } :=
  of_nextIs (by decide +kernel)
/-- V-FRM-10, second word. -/
theorem test_frmType_payload : exec (.frmType 0 0x49444154) lensetState = .next payloadState :=
  of_nextIs (by decide +kernel)
/-- V-FRM-13, third word: the chunk ends with the CRC A3 86 C5 02. -/
theorem test_frmByte_last :
    exec (.frmByte 0 0x5A) payloadState =
      .next { payloadState with
        acc := 0x5C793AFD, count := 0, phase := .idle
        out := [0, 0, 0, 1, 0x49, 0x44, 0x41, 0x54, 0x5A, 0xA3, 0x86, 0xC5, 0x02] } :=
  of_nextIs (by decide +kernel)
/-- V-FRM-15: FRM_BYTE in LENSET, STATUS = 0x1263. -/
theorem test_frmByte_sequence :
    exec (.frmByte 0 0) lensetState =
      .next { lensetState with phase := .error, errcode := 6, erropc := 0x12 } :=
  of_nextIs (by decide)
/-- V-CTL-04: OUT keeps the abandoned length field. -/
theorem test_srst : exec (.srst 0) lensetState = .next { State.reset with out := [0, 0, 0, 1] } :=
  of_nextIs (by decide)
/-- V-CTL-05: a malformed SRST does not leave ERROR. -/
theorem test_srst_malformed : exec (.srst 1) errorState = .next errorState :=
  of_nextIs (by decide)

/-! ## Words, reads and ports -/

/-- V-DEC-04: code 1 beats code 2. -/
theorem test_word_illegal :
    runWord 0x13FFFFFF00000000 State.reset =
      .next { State.reset with phase := .error, errcode := 1, erropc := 0x13 } :=
  of_nextIs (by decide)
/-- V-DEC-07. -/
theorem test_word_illegal_in_error : runWord 0 errorState = .next errorState :=
  of_nextIs (by decide)
/-- V-CTL-01, V-CTL-02. -/
theorem test_read_map :
    ([0x000, 0x001, 0x002, 0x100, 0x101, 0x180, 0x1FF] : List RegAddr).map (readReg State.reset) =
      [0, 0, 0xFFFFFFFF, 0, 0x77073096, 0xEDB88320, 0x2D02EF8D] := by decide
/-- V-CTL-03. -/
theorem test_read_reserved :
    ([0x006, 0x0FF, 0x200, 0xFFF] : List RegAddr).map (readReg payloadState) = [0, 0, 0, 0] := by decide
/-- V-FRM-07: STATUS = 0x1263; V-FRM-10 before its third word: LEN, COUNT, TYPE. -/
theorem test_read_status :
    readReg errorState 0x000 = 0x00001263 ∧ readReg payloadState 0x000 = 2 ∧
      readReg payloadState 0x001 = 0x35AF061E ∧ readReg payloadState 0x003 = 1 ∧
      readReg payloadState 0x004 = 1 ∧ readReg payloadState 0x005 = 0x49444154 := by decide
/-- 10_state R22, R40: the step runs the presented word and advances the host's position. -/
theorem test_step_command :
    step (fresh [.command 0x100000000000000D]) =
      .next { State.reset with len := 13, phase := .lenset, out := [0, 0, 0, 0x0D], index := 1 } :=
  of_nextIs (by decide)
/-- 10_state R22, R24: with the consumer not ready the bytes are in flight. -/
theorem test_step_held :
    step (held [.command 0x100000000000000D]) = .next { midCommand [] with index := 1 } :=
  of_nextIs (by decide)
/-- 70_reset R262: with the consumer ready, an `rst` that comes before the next command finds the command in progress. -/
theorem test_step_cut_by_rst :
    step (fresh [.command 0x100000000000000D, .rst true]) =
      .next { midCommand [.rst true] with outReady := true, index := 1 } :=
  of_nextIs (by decide)
/-- 10_state R22: a read that comes first is answered after the command, so the `rst` behind it cuts nothing. -/
theorem test_step_rst_after_read :
    step (fresh [.command 0x100000000000000D, .read 0, .rst true]) =
      .next { State.reset with
        len := 13, phase := .lenset, out := [0, 0, 0, 0x0D], index := 1, moves := [.read 0, .rst true] } :=
  of_nextIs (by decide)
/-- 10_state R22: a second command waits while the consumer takes a byte. -/
theorem test_step_take :
    step (midCommand [.command 0, .take]) =
      .next { midCommand [.command 0] with out := [0], inFlight := [0, 0, 13] } :=
  of_nextIs (by decide)
/-- 70_reset R270: the hang. -/
theorem test_step_stalls : step (midCommand [.command 0]) = .fault .outputStalled := rfl
/-- 70_reset R260: no read is answered while `rst` is asserted. -/
theorem test_step_rst_holds_reads :
    step { State.reset with rst := true, moves := [.read 0x002] } =
      .next { State.reset with rst := true, moves := [.read 0x002] } :=
  of_nextIs (by decide)
theorem test_withFetchWord :
    step (State.reset.withFetchWord 64 0x0200000000000061) =
      .next { State.reset with acc := 0x174841BC, index := 1 } :=
  of_nextIs (by decide +kernel)

/-! ## Toolchain and host (30_encoding R101 to R103, 48_host_usage) -/

theorem test_assemble_quotes :
    assembleLine ("  FRM.TYPE ".toList ++ [quoteChar, 'a', ';', ',', ' ', quoteChar] ++ " ; c".toList) =
      some [.frmType 0 0x613B2C20] := by decide
theorem test_assemble_errors :
    assembleLine "frm.byte 256".toList = none ∧ assembleLine "srst 1".toList = none ∧
      assembleLine "frm.ihdr 1".toList = none ∧ assembleLine "nop".toList = none := by decide
/-- R103: `frm.chunk T` with no bytes is `frm.empty T`. -/
theorem test_chunk_empty : frmChunk tagIEND [] = frmEmpty tagIEND ∧ frmEmpty tagIEND = frmIend := by decide
/-- V-FRM-12: the CRC of the IHDR body of W3, and of the one with interlace 1. -/
theorem test_ihdr_crc :
    crc32 (bytes4 tagIHDR ++ ihdrBody (pixelWidth 3) 1) = 0xECD55306 ∧
      crc32 (bytes4 tagIHDR ++ (be32 24 ++ be32 1 ++ [1, 0, 0, 0, 1])) = 0x9BD26390 := by decide +kernel
/-- R206. -/
theorem test_iend :
    buildChunk tagIEND [] = [0, 0, 0, 0, 0x49, 0x45, 0x4E, 0x44, 0xAE, 0x42, 0x60, 0x82] := by decide +kernel
/-- R208: no chunk command on either host error. -/
theorem test_host_errors :
    hostPlan 0 1 1 (some []) = .error .invalidInput ∧ hostPlan 3 0 1 (some []) = .error .invalidInput ∧
      hostPlan 3 3 1 none = .error .compressionFailure := ⟨rfl, rfl, rfl⟩

/-- R208: with no command issued the host issues none; after `frm.len 13` it issues SRST and drops the four bytes. -/
theorem test_host_abandons :
    hostReact ⟨0, []⟩ [] (.error .invalidInput) =
      { commands := [], kept := [], error := some .invalidInput } ∧
    hostReact ⟨2, [.frmLen 0 13]⟩ [7, 8, 0, 0, 0, 13] (.error .compressionFailure) =
      { commands := [.srst 0], kept := [7, 8], error := some .compressionFailure } := by decide

/-! ## Witnesses: the hypotheses of the obligations are met -/

/-- CrcInitFollowsItsRule, CrcByteFollowsItsRule and FrmLenFollowsItsRule: a state in each phase, and reserved bits that
are not zero. -/
theorem test_witness_phases :
    State.reset.phase = .idle ∧ lensetState.phase = .lenset ∧ payloadState.phase = .payload ∧
      errorState.phase = .error ∧ (1 : BitVec 56) ≠ 0 ∧ (1 : BitVec 48) ≠ 0 ∧ (1 : BitVec 24) ≠ 0 := by decide
/-- FrmTypeFollowsItsRule: LENSET with LEN = 1 and with LEN = 0. -/
theorem test_witness_FrmTypeFollowsItsRule :
    (lensetState.phase = .lenset ∧ lensetState.len ≠ 0) ∧ (lensetEmpty.phase = .lenset ∧ lensetEmpty.len = 0) := by
  decide
/-- FrmByteFollowsItsRule: PAYLOAD with COUNT = 2 and with COUNT = 1. -/
theorem test_witness_FrmByteFollowsItsRule :
    (payloadTwo.phase = .payload ∧ payloadTwo.count - 1 ≠ 0) ∧
      (payloadState.phase = .payload ∧ payloadState.count - 1 = 0) := by decide
theorem test_witness_DecodedWordReencodes : decodeWord 0x12000000000000FF = .instr (.frmByte 0 0xFF) := by decide
theorem test_witness_IllegalOpcodesRaiseErrorOne :
    (0x0000000000000000 : CmdWord).extractLsb' 56 8 ∉ ([0x01, 0x02, 0x10, 0x11, 0x12, 0xFF] : List (BitVec 8)) ∧
      (0xFE00000000000000 : CmdWord).extractLsb' 56 8 ∉ ([0x01, 0x02, 0x10, 0x11, 0x12, 0xFF] : List (BitVec 8)) ∧
      State.reset.phase ≠ .error ∧ errorState.phase = .error := by decide
theorem test_witness_OpcodeMapSelectsTheCommand :
    ∀ r ∈ opcodeTable, r.matchBits &&& r.mask = r.matchBits ∧ ∃ r' ∈ opcodeTable, r'.matchBits = r.matchBits := by
  decide
theorem test_witness_ReservedBitsRaiseErrorTwo :
    ∃ r ∈ opcodeTable, ((0x0200000100000000 : CmdWord) &&& r.mask = r.matchBits ∧ State.reset.phase ≠ .error) ∧
      (0x0200000100000000 : CmdWord) &&& r.mustBeZero ≠ 0 ∧ (0x0200000100000000 : CmdWord).extractLsb' 32 24 ≠ 0 := by
  decide
theorem test_witness_SingleByteChangeChangesCrc : (0x00 : Byte) ≠ 0x01 := by decide
theorem test_witness_UpdateIsLinear : ([0xFF, 0x01] : List Byte).length = ([0x00, 0x80] : List Byte).length := by
  decide
theorem test_witness_StreamingLaw :
    let bs : List Byte := [0x31, 0x32]
    let s := fresh (presents (bs.map (.crcByte 0)) ++ [])
    let s' := fresh (presents (.crcInit 0 :: bs.map (.crcByte 0)) ++ [.take])
    let s'' := fresh (presents (.srst 0 :: bs.map (.crcByte 0)) ++ [])
    (s.phase = .idle ∧ s.Ready ∧ s.moves = presents (bs.map (.crcByte 0)) ++ []) ∧
    (s'.phase = .idle ∧ s'.Ready ∧ s'.moves = presents (.crcInit 0 :: bs.map (.crcByte 0)) ++ [.take]) ∧
    (s''.Ready ∧ s''.moves = presents (.srst 0 :: bs.map (.crcByte 0)) ++ []) :=
  ⟨⟨rfl, ⟨rfl, rfl⟩, rfl⟩, ⟨rfl, ⟨rfl, rfl⟩, rfl⟩, ⟨⟨rfl, rfl⟩, rfl⟩⟩
theorem test_witness_FramerStateMachine :
    (Instr.frmType 0 0).WellFormed = true ∧ (framerCell .idle 0 0 (.frmType 0 0)).2 = some 5 := by decide
/-- ChunkLaw, and a machine that can run the two-byte chunk: ready, with a consumer that is ready and not cut off. -/
theorem test_witness_ChunkLaw :
    (State.reset.phase = .idle ∧ ([0x00, 0xFF] : List Byte).length < 2 ^ 32) ∧
      State.reset.Ready ∧ State.reset.outReady = true ∧ cutsTransfer [.read 0x001] = false :=
  ⟨by decide, ⟨rfl, rfl⟩, rfl, rfl⟩
/-- LengthPrefixEqualsPayloadLength with one payload byte: too few for n = 2, exactly n = 1, too many for n = 0; and
the largest n. -/
theorem test_witness_LengthPrefixEqualsPayloadLength :
    State.reset.phase = .idle ∧ ([0x5A] : List Byte).length < (2 : Word).toNat ∧
      ([0x5A] : List Byte).length = (1 : Word).toNat ∧ (0 : Word).toNat < ([0x5A] : List Byte).length ∧
      ([0x5A] : List Byte).length < (0xFFFFFFFF : Word).toNat := by decide

/-- The invariant holds in PAYLOAD after the type, with no payload byte issued. -/
theorem test_witness_payload_Inv : payloadState.Inv where
  noError := by decide
  errorCode := by decide
  payloadCount := by decide
  idleCount := by decide
  lensetWire := by decide
  payloadWire := fun _ => ⟨[], by decide +kernel⟩
  rstQuiet := by decide
  readyQuiet := by decide
/-- CountNeverWraps: a FRM_BYTE that decrements COUNT. -/
theorem test_witness_CountNeverWraps :
    payloadState.Inv ∧ (Instr.frmByte 0 0x5A).mnemonic = "FRM_BYTE" ∧ payloadState.phase = .payload ∧
      ∃ t, exec (.frmByte 0 0x5A) payloadState = .next t ∧ t.phase ≠ .error ∧ t.count ≠ payloadState.count :=
  ⟨test_witness_payload_Inv, by decide, rfl, _, test_frmByte_last, by decide⟩
theorem test_witness_CrcResultInsideAFrame :
    payloadState.Inv ∧ payloadState.phase = .payload ∧ ∃ t, exec (.frmLen 0 13) State.reset = .next t :=
  ⟨test_witness_payload_Inv, rfl, _, test_frmLen⟩
/-- SrstFollowsItsRule: a malformed SRST in ERROR and outside it. -/
theorem test_witness_SrstFollowsItsRule :
    errorState.phase = .error ∧ State.reset.phase ≠ .error ∧ (0x80000000000000 : BitVec 56) ≠ 0 := by decide
/-- The ends of the read map's ranges. -/
theorem test_witness_ReadMap :
    (0x006 ≤ (0x006 : RegAddr).toNat ∧ (0x0FF : RegAddr).toNat ≤ 0x0FF) ∧
      (0x100 ≤ (0x100 : RegAddr).toNat ∧ (0x1FF : RegAddr).toNat ≤ 0x1FF) ∧
      0x200 ≤ (0x200 : RegAddr).toNat ∧ 0x200 ≤ (0xFFF : RegAddr).toNat := by decide
theorem test_witness_ReadHasNoSideEffect :
    (fresh [.read 0x1FF]).Ready ∧ (fresh [.read 0x1FF]).moves = .read 0x1FF :: [] := ⟨⟨rfl, rfl⟩, rfl⟩
/-- ResetValues: `rst` between commands, and with bytes in flight. -/
theorem test_witness_ResetValues :
    ((fresh [.rst true]).moves = .rst true :: [] ∧ (fresh [.rst true]).inFlight = []) ∧
      (midCommand [.rst true]).moves = .rst true :: [] ∧ (midCommand [.rst true]).inFlight ≠ [] := by decide
/-- OnlyTheListedWritersWrite: a command that changes each register, a word of an illegal OPC, and a step that changes
a register. -/
theorem test_witness_OnlyTheListedWritersWrite :
    (∃ t, exec (.crcByte 0 0x61) State.reset = .next t ∧ t.acc ≠ State.reset.acc) ∧
    (∃ t, exec (.frmLen 0 13) State.reset = .next t ∧ t.len ≠ State.reset.len ∧ t.phase ≠ State.reset.phase) ∧
    (∃ t, exec (.frmType 0 0x49444154) lensetState = .next t ∧ t.count ≠ lensetState.count ∧
      t.type ≠ lensetState.type) ∧
    (∃ t, exec (.frmByte 0 0) lensetState = .next t ∧ t.errcode ≠ lensetState.errcode ∧
      t.erropc ≠ lensetState.erropc) ∧
    (decodeWord 0x13FFFFFF00000000 = .illegalOpc 0x13 ∧ ∃ t, runWord 0x13FFFFFF00000000 State.reset = .next t) ∧
    ∃ t, step (fresh [.command 0x100000000000000D]) = .next t ∧ ¬SameRegs (fresh [.command 0x100000000000000D]) t :=
  ⟨⟨_, test_crcByte, by decide⟩, ⟨_, test_frmLen, by decide⟩, ⟨_, test_frmType_payload, by decide⟩,
    ⟨_, test_frmByte_sequence, by decide⟩, ⟨by decide, _, test_word_illegal⟩,
    ⟨_, test_step_command, fun h => absurd h.2.1 (by decide)⟩⟩
/-- The invariant in LENSET while the length field is still in flight. -/
theorem test_witness_StepKeepsInvariant :
    (midCommand [.take]).Inv ∧
      step (midCommand [.take]) = .next { midCommand [] with out := [0], inFlight := [0, 0, 13] } where
  left :=
    { noError := by decide
      errorCode := by decide
      payloadCount := by decide
      idleCount := by decide
      lensetWire := by decide
      payloadWire := fun h => absurd h (by decide)
      rstQuiet := by decide
      readyQuiet := by decide }
  right := of_nextIs (by decide)
theorem test_witness_OutIsAppendOnly :
    (∃ t, step (fresh [.command 0x100000000000000D]) = .next t) ∧ ∃ t, exec (.frmLen 0 13) State.reset = .next t :=
  ⟨⟨_, test_step_command⟩, ⟨_, test_frmLen⟩⟩
/-- CrcCommandsFrame: a command that runs and one that errs. -/
theorem test_witness_CrcCommandsFrame :
    (Instr.crcByte 0 0x61).mnemonic ∈ ["CRC_INIT", "CRC_BYTE"] ∧
      (∃ t, exec (.crcByte 0 0x61) State.reset = .next t) ∧
      (Instr.crcInit 1).mnemonic ∈ ["CRC_INIT", "CRC_BYTE"] ∧ ∃ t, exec (.crcInit 1) State.reset = .next t :=
  ⟨by decide, ⟨_, test_crcByte⟩, by decide, ⟨_, test_crcInit_reserved⟩⟩
/-- FrmLenFrame, FrmTypeFrame, FrmByteFrame and SrstFrame: each command, in a state where it runs. -/
theorem test_witness_frames :
    (∃ t, exec (.frmLen 0 13) State.reset = .next t) ∧
      (∃ t, exec (.frmType 0 0x49444154) lensetState = .next t) ∧
      (∃ t, exec (.frmByte 0 0x5A) payloadState = .next t) ∧ ∃ t, exec (.srst 0) lensetState = .next t :=
  ⟨⟨_, test_frmLen⟩, ⟨_, test_frmType_payload⟩, ⟨_, test_frmByte_last⟩, ⟨_, test_srst⟩⟩
theorem test_witness_ErrorsArePrecise :
    State.reset.phase ≠ .error ∧ ∃ t, runWord 0x13FFFFFF00000000 State.reset = .next t ∧ t.phase = .error :=
  ⟨by decide, _, test_word_illegal, by decide⟩
theorem test_witness_ErrorStateIgnoresWords :
    let s : State := { errorState with moves := [.command 0xFF00000100000000] }
    s.phase = .error ∧ (0xFF00000100000000 : CmdWord) ≠ 0xFF00000000000000 ∧ s.Ready ∧
      s.moves = .command 0xFF00000100000000 :: [] := ⟨rfl, by decide, ⟨rfl, rfl⟩, rfl⟩
/-- ErrorPrecedence: a word that errs (V-DEC-05) and one that does not. -/
theorem test_witness_ErrorPrecedence :
    payloadState.phase ≠ .error ∧ wordError payloadState.phase 0x0200000000000100 = some 2 ∧
      wordError payloadState.phase 0x1200000000000000 = none := by decide
theorem test_witness_OnlySrstAndRstLeaveError :
    (∃ t, step { errorState with moves := [.command 0xFF00000000000000] } = .next t ∧ t.phase ≠ .error) ∧
    (∃ t, step { errorState with moves := [.rst true] } = .next t ∧ t.phase ≠ .error) ∧
    errorState.phase = .error ∧
    (State.Ready { errorState with moves := [.command 0xFF00000000000000] }) :=
  ⟨⟨_, rfl, by decide⟩, ⟨_, rfl, by decide⟩, rfl, ⟨rfl, rfl⟩⟩
/-- StepRunsTheDecodedCommand, with the consumer ready, ready and cut by `rst`, and not ready. -/
theorem test_witness_StepRunsTheDecodedCommand :
    ((fresh [.command 0x100000000000000D]).Ready ∧
        (fresh [.command 0x100000000000000D]).moves = .command 0x100000000000000D :: [] ∧
        (fresh [.command 0x100000000000000D]).outReady = true ∧ cutsTransfer [] = false) ∧
      ((fresh [.command 0x100000000000000D, .take, .rst true]).Ready ∧
        (fresh [.command 0x100000000000000D, .take, .rst true]).moves =
          .command 0x100000000000000D :: [.take, .rst true] ∧
        cutsTransfer [.take, .rst true] = true) ∧
      ((held [.command 0x100000000000000D]).Ready ∧
        (held [.command 0x100000000000000D]).moves = .command 0x100000000000000D :: [] ∧
        (held [.command 0x100000000000000D]).outReady = false) ∧
      decodeWord 0x100000000000000D = .instr (.frmLen 0 13) :=
  ⟨⟨⟨rfl, rfl⟩, rfl, rfl, rfl⟩, ⟨⟨rfl, rfl⟩, rfl, rfl⟩, ⟨⟨rfl, rfl⟩, rfl, rfl⟩, by decide⟩
theorem test_witness_StepOnAnIllegalWord :
    (fresh [.command 0]).Ready ∧ (fresh [.command 0]).moves = .command 0 :: [] ∧ decodeWord 0 = .illegalOpc 0 :=
  ⟨⟨rfl, rfl⟩, rfl, by decide⟩
/-- PresentedWordRunsNext, with the consumer ready, ready and cut by `rst`, and not ready. -/
theorem test_witness_PresentedWordRunsNext :
    decodeTableWord 64 0x0200000000000061 = some (.crcByte 0 0x61) ∧
      (State.reset.outReady = true ∧ cutsTransfer State.reset.moves = false) ∧
      cutsTransfer (fresh [.rst true]).moves = true ∧ (held []).outReady = false := by decide
/-- NothingIsAcceptedMidCommand: bytes in flight, and `rst` asserted. -/
theorem test_witness_NothingIsAcceptedMidCommand :
    (¬(midCommand [.command 0, .take]).Ready ∧ ∃ t, step (midCommand [.command 0, .take]) = .next t) ∧
      ¬State.Ready { State.reset with rst := true, moves := [.read 0x002] } ∧
      ∃ t, step { State.reset with rst := true, moves := [.read 0x002] } = .next t :=
  ⟨⟨fun h => absurd h.1 (by decide), _, test_step_take⟩, fun h => absurd h.2 (by decide), _, test_step_rst_holds_reads⟩
theorem test_witness_ConsumerTakesBytesInOrder :
    ((midCommand [.take]).inFlight = 0 :: [0, 0, 13] ∧ (midCommand [.take]).moves = .take :: []) ∧
      ((midCommand [.outReady true]).moves = .outReady true :: [] ∧ cutsTransfer [] = false) ∧
      (midCommand [.outReady true, .rst true]).moves = .outReady true :: [.rst true] ∧
      cutsTransfer [.rst true] = true := by decide
/-- BackpressureNeverChangesOut: `frm.len 13`, k = 4. -/
theorem test_witness_BackpressureNeverChangesOut :
    let s := held (.command 0x100000000000000D :: (List.replicate 4 .take ++ []))
    let u : State := { held [] with len := 13, phase := .lenset, out := [0, 0, 0, 13] }
    s.Ready ∧ s.outReady = false ∧ runWord 0x100000000000000D { s with moves := [] } = .next u ∧
      u.out.length = s.out.length + 4 ∧
      s.moves = .command 0x100000000000000D :: (List.replicate 4 .take ++ []) :=
  ⟨⟨rfl, rfl⟩, rfl, of_nextIs (by decide), by decide, rfl⟩
theorem test_witness_HeldReadIsAnsweredAfterTheCommand :
    let s := held (.command 0x100000000000000D :: .read 0x003 :: (List.replicate 4 .take ++ []))
    let u : State := { held [] with len := 13, phase := .lenset, out := [0, 0, 0, 13] }
    s.Ready ∧ s.outReady = false ∧ runWord 0x100000000000000D { s with moves := [] } = .next u ∧
      u.out.length = s.out.length + 4 ∧
      s.moves = .command 0x100000000000000D :: .read 0x003 :: (List.replicate 4 .take ++ []) :=
  ⟨⟨rfl, rfl⟩, rfl, of_nextIs (by decide), by decide, rfl⟩
/-- ResetTearsAtSomePrefix: with four bytes in flight, and between commands. -/
theorem test_witness_ResetTearsAtSomePrefix :
    ((midCommand [.rst true]).moves = .rst true :: [] ∧ (midCommand [.rst true]).inFlight ≠ []) ∧
      (fresh [.rst true]).moves = .rst true :: [] ∧ (fresh [.rst true]).inFlight = [] := by decide
/-- TornCommandLeavesAPrefix: `frm.len 13`, with a consumer that is ready and with one that is not. -/
theorem test_witness_TornCommandLeavesAPrefix :
    ∀ s ∈ [fresh [.command 0x100000000000000D, .rst true], held [.command 0x100000000000000D, .rst true]],
      s.Ready ∧ s.moves = .command 0x100000000000000D :: .rst true :: [] ∧
        ∃ u, runWord 0x100000000000000D s = .next u ∧ u.out = s.out ++ [0, 0, 0, 13] := by
  intro s hs
  simp only [List.mem_cons, List.not_mem_nil, or_false] at hs
  rcases hs with rfl | rfl <;> exact ⟨⟨rfl, rfl⟩, rfl, _, rfl, rfl⟩
/-- FallingOutReadyKeepsTheRest: `out_ready` falls during a transfer, and while it is low. -/
theorem test_witness_FallingOutReadyKeepsTheRest :
    (step (fresh [.command 0x100000000000000D, .outReady false]) =
        .next { midCommand [.outReady false] with outReady := true, index := 1 } ∧
      (midCommand [.outReady false]).inFlight ≠ []) ∧
      (midCommand [.outReady false]).moves = .outReady false :: [] ∧
      (midCommand [.outReady false]).outReady = false :=
  ⟨⟨of_nextIs (by decide), by decide⟩, by decide, by decide⟩
theorem test_witness_CommandWaitsForResetToEnd :
    let s : State := { State.reset with rst := true, moves := [.command 0, .rst false] }
    s.inFlight = [] ∧ s.rst = true ∧ s.moves = .command 0 :: .rst false :: [] := by decide
/-- HangsExactlyWithoutAConsumer: both sides of the equivalence, and a state in which they fail. -/
theorem test_witness_HangsExactlyWithoutAConsumer :
    step (midCommand [.command 0]) = .fault .outputStalled ∧
      ((midCommand [.command 0]).inFlight ≠ [] ∧ ∀ m ∈ (midCommand [.command 0]).moves, m.waits = true) ∧
      step (midCommand [.command 0, .take]) ≠ .fault .outputStalled :=
  ⟨rfl, by decide, by rw [test_step_take]; exact fun h => nomatch h⟩
theorem test_witness_IdleHoldsItsState : State.reset.moves = [] ∧ State.reset.inFlight = [] := by decide
/-- HostErrorsAbandonTheImage: an empty input, a zero width, a failed compressor, after none and after some commands. -/
theorem test_witness_HostErrorsAbandonTheImage :
    hostPlan 3 3 1 none = .error .compressionFailure ∧ (3 : Nat) ≠ 0 ∧ (3 : Word) ≠ 0 ∧
      hostPlan 0 1 1 none = .error .invalidInput ∧ hostPlan 3 0 1 (some []) = .error .invalidInput ∧
      execAll [] State.reset = .next State.reset ∧
      ∃ u, execAll [.frmLen 0 13] State.reset = .next u ∧ [Instr.frmLen 0 13] ≠ [] ∧ 0 = State.reset.out.length :=
  ⟨rfl, by decide, by decide, rfl, rfl, rfl, _, rfl, by decide, rfl⟩
/-- PngCommandSequence: the source's example, w = 3, h = 1, and the largest width. -/
theorem test_witness_PngCommandSequence :
    State.reset.phase = .idle ∧
      ([0x78, 0x01, 0x01, 0x04, 0x00, 0xFB, 0xFF, 0x00, 0x01, 0x02, 0x03, 0x00, 0x0E, 0x00, 0x07] :
        List Byte).length < 2 ^ 32 ∧
      (3 : Word).toNat * 8 < 2 ^ 32 ∧ (0x1FFFFFFF : Word).toNat * 8 < 2 ^ 32 := by decide

end Sys2Proof.Tests
end

section
/-! PROOFS. What a command can do, said once: it is ignored, it raises an error, or it has its row's effect; and what
any of the three leaves unchanged. -/

namespace Sys2Proof.Machine

/-- The effect of a command's rule, without the checks before it (40_crc R128, R129; 41_framer R151 to R153; 42_control
R180). `exec_cases` ties it to `exec`. -/
def commandEffect : Instr → State → State
  | .crcInit _, s => { s with acc := crcInitValue }
  | .crcByte _ b, s => { s with acc := upd s.acc b }
  | .frmLen _ l, s => frmLenEffect l s
  | .frmType _ t, s => frmTypeEffect t s
  | .frmByte _ b, s => frmByteEffect b s
  | .srst _, s => resetRegs s

/-- The STATE in which a command's rule has its effect (60_exceptions R224, step 3); SRST has it in each. -/
def runsIn : Instr → Phase → Prop
  | .crcInit _, p => p = .idle
  | .crcByte _ _, p => p = .idle
  | .frmLen _ _, p => p = .idle
  | .frmType _ _, p => p = .lenset
  | .frmByte _ _, p => p = .payload
  | .srst _, _ => True

/-- What `checked_cases` comes to: the command is ignored, raises an error, or has its effect. -/
theorem checked_outcomes (opc : BitVec 8) (ok : Bool) (wanted : Phase) (e : BlockError) (f : State → State)
    (s : State) :
    (s.phase = .error ∧ checked opc ok wanted e f s = .next s) ∨
    (s.phase ≠ .error ∧ ∃ e', checked opc ok wanted e f s = .next (raiseError e' opc s)) ∨
    (ok = true ∧ s.phase = wanted ∧ checked opc ok wanted e f s = .next (f s)) := by
  rcases checked_cases opc ok wanted e f s with ⟨hp, h⟩ | ⟨hp, -, h⟩ | ⟨hp, -, -, h⟩ | ⟨-, hok, hw, h⟩
  · exact .inl ⟨hp, h⟩
  · exact .inr (.inl ⟨hp, _, h⟩)
  · exact .inr (.inl ⟨hp, _, h⟩)
  · exact .inr (.inr ⟨hok, hw, h⟩)

/-- Everything a command can do (60_exceptions R223, R224, R227): one of three, and always a next state. -/
theorem exec_cases (i : Instr) (s : State) :
    (s.phase = .error ∧ exec i s = .next s) ∨
    (s.phase ≠ .error ∧ ∃ e, exec i s = .next (raiseError e i.opcode s)) ∨
    (i.WellFormed = true ∧ runsIn i s.phase ∧ exec i s = .next (commandEffect i s)) := by
  cases i with
  | crcInit rsv => exact checked_outcomes opcCrcInit (reservedClear rsv) .idle .crcBusy (commandEffect (.crcInit rsv)) s
  | crcByte rsv b => exact checked_outcomes opcCrcByte (reservedClear rsv) .idle .crcBusy (commandEffect (.crcByte rsv b)) s
  | frmLen rsv l => exact checked_outcomes opcFrmLen (reservedClear rsv) .idle .lenSeq _ s
  | frmType rsv t => exact checked_outcomes opcFrmType (reservedClear rsv) .lenset .typeSeq _ s
  | frmByte rsv b => exact checked_outcomes opcFrmByte (reservedClear rsv) .payload .byteSeq _ s
  | srst rsv =>
    rcases execSrst_cases rsv s with ⟨hr, h⟩ | ⟨-, hp, h⟩ | ⟨-, hp, h⟩
    · exact .inr (.inr ⟨by simp [Instr.WellFormed, hr], trivial, h⟩)
    · exact .inl ⟨hp, h⟩
    · exact .inr (.inl ⟨hp, _, h⟩)

/-- A word of an illegal OPC is ignored or raises E_ILLEGAL_OPC (30_encoding R97, 60_exceptions R223). -/
theorem illegalWord_cases (opc : BitVec 8) (s : State) :
    (s.phase = .error ∧ illegalWord opc s = s) ∨
    (s.phase ≠ .error ∧ illegalWord opc s = raiseError .illegalOpc opc s) := by
  by_cases hp : s.phase = .error
  · exact .inl ⟨hp, by simp [illegalWord, hp]⟩
  · exact .inr ⟨hp, by simp [illegalWord, hp]⟩

/-- The effect of a word of an assigned opcode is its command's meaning. -/
theorem runWord_instr {w : CmdWord} {i : Instr} (h : decodeWord w = .instr i) (s : State) :
    runWord w s = exec i s := by
  simp [runWord, h]

/-- The effect of a word of an illegal opcode. -/
theorem runWord_illegal {w : CmdWord} {opc : BitVec 8} (h : decodeWord w = .illegalOpc opc) (s : State) :
    runWord w s = .next (illegalWord opc s) := by
  simp [runWord, h]

/-! ## What the effects leave unchanged -/

theorem SameOutside.refl (s : State) : SameOutside s s := ⟨rfl, rfl, rfl, rfl, rfl, rfl, rfl⟩

theorem raiseError_outside (e : BlockError) (opc : BitVec 8) (s : State) : SameOutside s (raiseError e opc s) :=
  ⟨rfl, rfl, rfl, rfl, rfl, rfl, rfl⟩

/-- FRM_TYPE leaves LEN and the error registers, and appends to OUT. -/
theorem frmTypeEffect_frame (t : Word) (s : State) :
    (frmTypeEffect t s).len = s.len ∧ (frmTypeEffect t s).errcode = s.errcode ∧
      (frmTypeEffect t s).erropc = s.erropc ∧ s.out <+: (frmTypeEffect t s).out ∧
      SameOutside s (frmTypeEffect t s) := by
  by_cases h : s.len = 0
  · simp [frmTypeEffect_empty t s h, SameOutside]
  · simp [frmTypeEffect_payload t s h, SameOutside]

/-- FRM_BYTE leaves LEN, TYPE and the error registers, and appends to OUT. -/
theorem frmByteEffect_frame (b : Byte) (s : State) :
    (frmByteEffect b s).len = s.len ∧ (frmByteEffect b s).type = s.type ∧
      (frmByteEffect b s).errcode = s.errcode ∧ (frmByteEffect b s).erropc = s.erropc ∧
      s.out <+: (frmByteEffect b s).out ∧ SameOutside s (frmByteEffect b s) := by
  by_cases h : s.count - 1 = 0
  · simp [frmByteEffect_last b s h, SameOutside]
  · simp [frmByteEffect_more b s h, SameOutside]

/-- An effect only appends to OUT, and writes nothing outside the registers and OUT. -/
theorem commandEffect_appends (i : Instr) (s : State) :
    s.out <+: (commandEffect i s).out ∧ SameOutside s (commandEffect i s) := by
  cases i with
  | crcInit rsv => exact ⟨List.prefix_rfl, .refl s⟩
  | crcByte rsv b => exact ⟨List.prefix_rfl, .refl s⟩
  | frmLen rsv l => simp [commandEffect, frmLenEffect_eq, SameOutside]
  | frmType rsv t =>
    obtain ⟨-, -, -, hout, houtside⟩ := frmTypeEffect_frame t s
    exact ⟨hout, houtside⟩
  | frmByte rsv b =>
    obtain ⟨-, -, -, -, hout, houtside⟩ := frmByteEffect_frame b s
    exact ⟨hout, houtside⟩
  | srst rsv => exact ⟨List.prefix_rfl, .refl s⟩

/-- Every command answers a next state, appends to OUT, and writes nothing outside the registers and OUT. -/
theorem exec_appends (i : Instr) (s : State) : ∃ t, exec i s = .next t ∧ s.out <+: t.out ∧ SameOutside s t := by
  rcases exec_cases i s with ⟨-, h⟩ | ⟨-, e, h⟩ | ⟨-, -, h⟩
  · exact ⟨s, h, List.prefix_rfl, .refl s⟩
  · exact ⟨_, h, List.prefix_rfl, raiseError_outside e i.opcode s⟩
  · exact ⟨_, h, commandEffect_appends i s⟩

/-- So does every word. -/
theorem runWord_appends (w : CmdWord) (s : State) :
    ∃ t, runWord w s = .next t ∧ s.out <+: t.out ∧ SameOutside s t := by
  cases hw : decodeWord w with
  | instr i => simpa only [runWord_instr hw] using exec_appends i s
  | illegalOpc opc =>
    refine ⟨_, runWord_illegal hw s, ?_⟩
    rcases illegalWord_cases opc s with ⟨-, h⟩ | ⟨-, h⟩ <;> rw [h]
    · exact ⟨List.prefix_rfl, .refl s⟩
    · exact ⟨List.prefix_rfl, raiseError_outside .illegalOpc opc s⟩

end Sys2Proof.Machine
end

section
/-! PROOFS. What a step can do, said once for each kind of move of the host. -/

namespace Sys2Proof.Machine

theorem SameRegs.refl (s : State) : SameRegs s s := ⟨rfl, rfl, rfl, rfl, rfl, rfl, rfl⟩

/-! ## Which move comes next -/

/-- A move waits exactly when it is a command or a read and `cmd_ready` is low. -/
theorem moveEnabled_eq (ready : Bool) (m : HostMove) : moveEnabled ready m = (ready || !m.waits) := by
  cases m <;> simp [moveEnabled, HostMove.waits]

/-- A pin move at the head of the list comes next, whether CRCF is ready or not. -/
theorem nextMove_pin_cons {m : HostMove} (hm : m.waits = false) (ready : Bool) (ms : List HostMove) :
    nextMove ready (m :: ms) = some (m, ms) := by
  simp [nextMove, moveEnabled_eq, hm]

/-- Where the host's next moves cut the transfer, the first of them comes next. -/
theorem nextMove_of_cutsTransfer {ready : Bool} {ms rest : List HostMove} {m : HostMove}
    (hc : cutsTransfer ms = true) (hn : nextMove ready ms = some (m, rest)) : ms = m :: rest := by
  cases ms with
  | nil => simp [cutsTransfer] at hc
  | cons x xs =>
    have hx : x.waits = false := by
      cases x with
      | command w => simp [cutsTransfer] at hc
      | read a => simp [cutsTransfer] at hc
      | rst level => rfl
      | outReady level => rfl
      | take => rfl
    rw [nextMove_pin_cons hx] at hn
    cases hn
    rfl

/-- A state that is not `Ready` has `cmd_ready` low. -/
theorem cmdReady_of_not_ready {s : State} (h : ¬s.Ready) : cmdReady s = false := by
  rw [← Bool.not_eq_true, cmdReady_iff]
  exact h

/-- One step when the first move is a pin move. -/
theorem step_pin {s : State} {m : HostMove} {rest : List HostMove} (hm : m.waits = false)
    (hs : s.moves = m :: rest) : step s = perform m { s with moves := rest } := by
  simp [step, hostTurn, hs, nextMove_pin_cons hm]

/-- What a step that answers a next state has done: the host's next move, or nothing. -/
theorem step_next_cases {s t : State} (h : step s = .next t) :
    (∃ m rest, nextMove (cmdReady s) s.moves = some (m, rest) ∧ perform m { s with moves := rest } = .next t) ∨
    t = s := by
  rcases step_cases s with ⟨m, rest, hn, hs⟩ | ⟨-, hs⟩
  · exact .inl ⟨m, rest, hn, hs ▸ h⟩
  · rw [hs] at h
    unfold holdState at h
    split at h
    · cases h
    · cases h
      exact .inr rfl

/-! ## Transfer to a ready consumer -/

/-- A transfer keeps every register. -/
theorem deliver_sameRegs (s : State) : SameRegs s (deliver s) := by
  simp [SameRegs]

/-- A transfer only appends to OUT. -/
theorem deliver_out_prefix (s : State) : s.out <+: (deliver s).out := by
  rcases deliver_cases s with ⟨-, -, h⟩ | ⟨-, h⟩
  · simp [h]
  · rw [h]

/-! ## Commands -/

/-- An accepted word's effect, with its bytes offered. -/
theorem accept_eq {w : CmdWord} {s t : State} (h : runWord w s = .next t) : accept w s = .next (offer s t) := by
  simp [accept, h]

/-- An accepted word answers the offer of its effect's result. -/
theorem accept_next {w : CmdWord} {s u : State} (h : accept w s = .next u) :
    ∃ t, runWord w s = .next t ∧ s.out <+: t.out ∧ SameOutside s t ∧ u = offer s t := by
  obtain ⟨t, ht, hout, houtside⟩ := runWord_appends w s
  rw [accept_eq ht] at h
  cases h
  exact ⟨t, ht, hout, houtside, rfl⟩

/-- Offering a command's bytes keeps the registers as the command left them. -/
theorem offer_sameRegs (s t : State) : SameRegs t (offer s t) := by
  simp [SameRegs]

/-- Offering only appends to OUT. -/
theorem offer_out_prefix (s t : State) : s.out <+: (offer s t).out :=
  deliver_out_prefix { t with index := t.index + 1, out := s.out, inFlight := t.out.drop s.out.length }

/-- The bytes that a command emits are all of its effect's OUT, on OUT or in flight. -/
theorem offer_stream {s t : State} (h : s.out <+: t.out) : (offer s t).stream = t.out := by
  obtain ⟨bs, hbs⟩ := h
  simp only [State.stream, offer, deliver_stream, ← hbs, List.drop_left]

/-- After an offer with a ready consumer, bytes are in flight only when the host is to cut their transfer. -/
theorem offer_readyQuiet (s t : State) (h : (offer s t).outReady = true) :
    (offer s t).inFlight = [] ∨ cutsTransfer (offer s t).moves = true := by
  rw [offer_outReady] at h
  rw [offer_moves]
  unfold offer
  rcases deliver_cases { t with index := t.index + 1, out := s.out, inFlight := t.out.drop s.out.length } with
    ⟨-, -, hd⟩ | ⟨hd | hd, -⟩
  · exact .inl (by rw [hd])
  · simp [h] at hd
  · exact .inr hd

/-! ## Pin moves -/

/-- Everything the consumer's taking of a byte can do. -/
theorem takeByte_cases (s : State) :
    (s.inFlight = [] ∧ takeByte s = s) ∨
    ∃ b bs, s.inFlight = b :: bs ∧ takeByte s = { s with out := s.out ++ [b], inFlight := bs } := by
  cases h : s.inFlight with
  | nil => exact .inl ⟨rfl, by simp [takeByte, h]⟩
  | cons b bs => exact .inr ⟨b, bs, rfl, by simp [takeByte, h]⟩

/-- An assertion of `rst` puts every register at its reset value. -/
theorem assertRst_regsReset (s : State) : (assertRst s).RegsReset := ⟨rfl, rfl, rfl, rfl, rfl, rfl, rfl⟩

/-- What a pin move does: it answers a next state, appends to OUT, and leaves the host's position, the record of
answers and, unless it asserts `rst`, every register (10_state R24, R25; 70_reset R260, R263). -/
theorem perform_pin {m : HostMove} (hm : m.waits = false) (s : State) :
    ∃ t, perform m s = .next t ∧ t.index = s.index ∧ t.answers = s.answers ∧ s.out <+: t.out ∧
      (SameRegs s t ∨ (m = .rst true ∧ t.RegsReset ∧ t.rst = true)) := by
  cases m with
  | command w => simp [HostMove.waits] at hm
  | read a => simp [HostMove.waits] at hm
  | rst level =>
    cases level with
    | true =>
      exact ⟨assertRst s, rfl, rfl, rfl, List.prefix_append _ _, .inr ⟨rfl, assertRst_regsReset s, rfl⟩⟩
    | false => exact ⟨{ s with rst := false }, rfl, rfl, rfl, List.prefix_rfl, .inl (.refl s)⟩
  | outReady level =>
    cases level with
    | true =>
      exact ⟨deliver { s with outReady := true }, rfl, deliver_index _, deliver_answers _,
        deliver_out_prefix { s with outReady := true }, .inl (deliver_sameRegs { s with outReady := true })⟩
    | false => exact ⟨lowerOutReady s, rfl, rfl, rfl, List.prefix_append _ _, .inl (.refl s)⟩
  | take =>
    refine ⟨takeByte s, rfl, ?_⟩
    rcases takeByte_cases s with ⟨-, h⟩ | ⟨b, bs, -, h⟩ <;> rw [h]
    · exact ⟨rfl, rfl, List.prefix_rfl, .inl (.refl s)⟩
    · exact ⟨rfl, rfl, List.prefix_append _ _, .inl (.refl s)⟩

/-- No move of the host removes or changes a byte of OUT. -/
theorem perform_out_prefix {m : HostMove} {s t : State} (h : perform m s = .next t) : s.out <+: t.out := by
  have pin : m.waits = false → s.out <+: t.out := fun hm => by
    obtain ⟨u, hu, -, -, hout, -⟩ := perform_pin hm s
    cases hu.symm.trans h
    exact hout
  cases m with
  | command w =>
    obtain ⟨u, -, -, -, rfl⟩ := accept_next h
    exact offer_out_prefix s u
  | read a =>
    cases h
    exact List.prefix_rfl
  | rst level => exact pin rfl
  | outReady level => exact pin rfl
  | take => exact pin rfl

end Sys2Proof.Machine
end

section
/-! PROOFS. The invariants of 10_state R45: what keeps them, move by move and command by command. -/

namespace Sys2Proof.Machine

/-! ## Two general ways to the invariant -/

/-- The invariant speaks of the registers and the emitted bytes: what leaves both keeps it, if bytes are in flight only
where it allows them. -/
theorem State.Inv.of_sameRegs {s t : State} (h : s.Inv) (hr : SameRegs s t) (hs : t.stream = s.stream)
    (hrst : t.rst = true → t.inFlight = [])
    (hready : t.outReady = true → t.inFlight = [] ∨ cutsTransfer t.moves = true) : t.Inv := by
  obtain ⟨hacc, hlen, hcount, htype, hphase, herr, hopc⟩ := hr
  exact {
    noError := by simpa only [hphase, herr, hopc] using h.noError
    errorCode := by simpa only [hphase, herr] using h.errorCode
    payloadCount := by simpa only [hphase, hcount, hlen] using h.payloadCount
    idleCount := by simpa only [hphase, hcount] using h.idleCount
    lensetWire := by simpa only [hphase, hlen, hs] using h.lensetWire
    payloadWire := by simpa only [hphase, hcount, hlen, htype, hacc, hs] using h.payloadWire
    rstQuiet := hrst
    readyQuiet := hready }

/-- In IDLE the invariant asks for COUNT = 0 and no error code only, where nothing is in flight. -/
theorem State.Inv.of_idle {t : State} (hp : t.phase = .idle) (hcount : t.count = 0) (herr : t.errcode = 0)
    (hopc : t.erropc = 0) (hq : t.inFlight = []) : t.Inv where
  noError _ := ⟨herr, hopc⟩
  errorCode h := by simp [hp] at h
  payloadCount h := by simp [hp] at h
  idleCount _ := hcount
  lensetWire h := by simp [hp] at h
  payloadWire h := by simp [hp] at h
  rstQuiet _ := hq
  readyQuiet _ := .inl hq

/-- So it holds with every register at its reset value. -/
theorem State.Inv.of_regsReset {t : State} (h : t.RegsReset) (hq : t.inFlight = []) : t.Inv := by
  obtain ⟨-, -, hcount, -, hphase, herr, hopc⟩ := h
  exact .of_idle hphase hcount herr hopc hq

/-! ## Commands -/

/-- Every error's code is from 1 to 6 (60_exceptions R221). -/
theorem errorCode_range (e : BlockError) : 1 ≤ (errorCode e).toNat ∧ (errorCode e).toNat ≤ 6 := by
  cases e <;> decide

/-- An error meets the invariant: in ERROR only the code's range is asked for. -/
theorem raiseError_inv (e : BlockError) (opc : BitVec 8) {s : State} (hq : s.inFlight = []) :
    (raiseError e opc s).Inv where
  noError h := by simp at h
  errorCode _ := errorCode_range e
  payloadCount h := by simp at h
  idleCount h := by simp at h
  lensetWire h := by simp at h
  payloadWire h := by simp at h
  rstQuiet _ := hq
  readyQuiet _ := .inl hq

section
variable {s : State} (h : s.Inv) (hq : s.inFlight = [])
include h hq

/-- A change of ACC in IDLE keeps the invariant. -/
theorem acc_inv (hp : s.phase = .idle) (a : Word) : ({ s with acc := a } : State).Inv := by
  obtain ⟨herr, hopc⟩ := h.noError (by simp [hp])
  exact .of_idle hp (h.idleCount (.inl hp)) herr hopc hq

/-- FRM_LEN in IDLE puts the length field on the wire. -/
theorem frmLenEffect_inv (hp : s.phase = .idle) (l : Word) : (frmLenEffect l s).Inv := by
  rw [frmLenEffect_eq]
  exact {
    noError := fun _ => h.noError (by simp [hp])
    errorCode := by simp
    payloadCount := by simp
    idleCount := fun _ => h.idleCount (.inl hp)
    lensetWire := fun _ => by simp [State.stream, hq]
    payloadWire := by simp
    rstQuiet := fun _ => hq
    readyQuiet := fun _ => .inl hq }

/-- FRM_TYPE in LENSET puts the type on the wire behind the length field, with no payload byte yet. -/
theorem frmTypeEffect_inv (hp : s.phase = .lenset) (t : Word) : (frmTypeEffect t s).Inv := by
  obtain ⟨herr, hopc⟩ := h.noError (by simp [hp])
  by_cases hl : s.len = 0
  · rw [frmTypeEffect_empty t s hl]
    exact .of_idle rfl rfl herr hopc hq
  · rw [frmTypeEffect_payload t s hl]
    have hpos : 1 ≤ s.len.toNat := by
      have : s.len.toNat ≠ 0 := fun h0 => hl (BitVec.eq_of_toNat_eq h0)
      omega
    have hwire : be32 s.len <:+ s.out := by simpa [State.stream, hq] using h.lensetWire hp
    exact {
      noError := fun _ => ⟨herr, hopc⟩
      errorCode := by simp
      payloadCount := fun _ => ⟨hpos, Nat.le_refl _⟩
      idleCount := by simp
      lensetWire := by simp
      payloadWire := fun _ => by
        obtain ⟨pre, hpre⟩ := hwire
        exact ⟨[], by simp, ⟨pre, by simp [State.stream, hq, ← hpre]⟩, by simp [crcInitValue]⟩
      rstQuiet := fun _ => hq
      readyQuiet := fun _ => .inl hq }

/-- FRM_BYTE in PAYLOAD appends one byte to the payload on the wire and to what ACC is the CRC of. -/
theorem frmByteEffect_inv (hp : s.phase = .payload) (b : Byte) : (frmByteEffect b s).Inv := by
  obtain ⟨herr, hopc⟩ := h.noError (by simp [hp])
  by_cases hc : s.count - 1 = 0
  · rw [frmByteEffect_last b s hc]
    exact .of_idle rfl rfl herr hopc hq
  · rw [frmByteEffect_more b s hc]
    obtain ⟨hlo, hhi⟩ := h.payloadCount hp
    obtain ⟨p, hplen, ⟨pre, hpre⟩, hacc⟩ := h.payloadWire hp
    have hsub : (s.count - 1).toNat = s.count.toNat - 1 := by bv_omega
    have hpos : (s.count - 1).toNat ≠ 0 := fun h0 => hc (BitVec.eq_of_toNat_eq h0)
    exact {
      noError := fun _ => ⟨herr, hopc⟩
      errorCode := by simp [hp]
      payloadCount := fun _ => by
        change 1 ≤ (s.count - 1).toNat ∧ (s.count - 1).toNat ≤ s.len.toNat
        omega
      idleCount := by simp [hp]
      lensetWire := by simp [hp]
      payloadWire := fun _ => by
        refine ⟨p ++ [b], ?_, ⟨pre, ?_⟩, ?_⟩
        · rw [List.length_append, List.length_singleton, hplen]
          change _ = s.len.toNat - (s.count - 1).toNat
          omega
        · have hout : pre ++ (be32 s.len ++ bytes4 s.type ++ p) = s.out := by
            simpa [State.stream, hq] using hpre
          simp [State.stream, hq, ← hout]
        · rw [← List.append_assoc, updAll_concat, ← hacc]
      rstQuiet := fun _ => hq
      readyQuiet := fun _ => .inl hq }

/-- The effect of a command keeps the invariant, in the STATE in which its rule has the effect. -/
theorem commandEffect_inv (i : Instr) (hi : runsIn i s.phase) : (commandEffect i s).Inv := by
  cases i with
  | crcInit rsv => exact acc_inv h hq hi _
  | crcByte rsv b => exact acc_inv h hq hi _
  | frmLen rsv l => exact frmLenEffect_inv h hq hi l
  | frmType rsv t => exact frmTypeEffect_inv h hq hi t
  | frmByte rsv b => exact frmByteEffect_inv h hq hi b
  | srst rsv => exact .of_regsReset ⟨rfl, rfl, rfl, rfl, rfl, rfl, rfl⟩ hq

/-- Every command keeps the invariant. -/
theorem exec_inv {i : Instr} {t : State} (ht : exec i s = .next t) : t.Inv := by
  rcases exec_cases i s with ⟨-, he⟩ | ⟨-, e, he⟩ | ⟨-, hi, he⟩ <;> cases he.symm.trans ht
  · exact h
  · exact raiseError_inv e i.opcode hq
  · exact commandEffect_inv h hq i hi

/-- Every word's effect keeps the invariant. -/
theorem runWord_inv {w : CmdWord} {t : State} (ht : runWord w s = .next t) : t.Inv := by
  cases hw : decodeWord w with
  | instr i => exact exec_inv h hq (runWord_instr hw s ▸ ht)
  | illegalOpc opc =>
    cases (runWord_illegal hw s).symm.trans ht
    rcases illegalWord_cases opc s with ⟨-, he⟩ | ⟨-, he⟩ <;> rw [he]
    · exact h
    · exact raiseError_inv .illegalOpc opc hq

/-- An accepted word keeps the invariant: its bytes are offered with the emitted bytes and the registers as its effect
left them. -/
theorem accept_inv {w : CmdWord} {u : State} (hrst : s.rst = false) (hu : accept w s = .next u) : u.Inv := by
  obtain ⟨t, ht, hout, houtside, rfl⟩ := accept_next hu
  obtain ⟨hflight, hlevel, -⟩ := houtside
  refine (runWord_inv h hq ht).of_sameRegs (offer_sameRegs s t) ?_ ?_ (offer_readyQuiet s t)
  · rw [offer_stream hout, State.stream, hflight, hq, List.append_nil]
  · simp [hlevel, hrst]

end

/-! ## Pin moves -/

/-- Where the transfer stays in the host's hands, taking the next move off its list keeps the invariant. -/
theorem State.Inv.of_moves {s : State} (h : s.Inv) {rest : List HostMove}
    (hready : s.outReady = true → s.inFlight = [] ∨ cutsTransfer rest = true) :
    ({ s with moves := rest } : State).Inv :=
  h.of_sameRegs (.refl s) rfl h.rstQuiet hready

/-- A cut to come is still to come after a move that neither drives `out_ready` nor asserts `rst`. -/
theorem State.Inv.cut_after {s : State} (h : s.Inv) {ready : Bool} {m : HostMove} {rest : List HostMove}
    (hn : nextMove ready s.moves = some (m, rest)) (hm : cutsTransfer (m :: rest) = cutsTransfer rest) :
    s.outReady = true → s.inFlight = [] ∨ cutsTransfer rest = true := fun ho => by
  rcases h.readyQuiet ho with hf | hc
  · exact .inl hf
  · exact .inr (by rw [← hm, ← nextMove_of_cutsTransfer hc hn]; exact hc)

/-- The consumer's taking of a byte keeps the invariant. -/
theorem takeByte_inv {s : State} (h : s.Inv) : (takeByte s).Inv := by
  rcases takeByte_cases s with ⟨-, he⟩ | ⟨b, bs, hf, he⟩ <;> rw [he]
  · exact h
  · refine h.of_sameRegs (.refl s) (by simp [State.stream, hf]) (fun hr => ?_) (fun ho => ?_)
    · simp [h.rstQuiet hr] at hf
    · exact .inr ((h.readyQuiet ho).resolve_left (by simp [hf]))

/-- A rise of `out_ready` keeps the invariant, whatever the host does after it. -/
theorem raiseOutReady_inv {s : State} (h : s.Inv) (rest : List HostMove) :
    (deliver { s with outReady := true, moves := rest }).Inv := by
  rcases deliver_cases { s with outReady := true, moves := rest } with ⟨-, -, he⟩ | ⟨hc, he⟩ <;> rw [he]
  · exact h.of_sameRegs (.refl s) (by simp [State.stream]) (fun _ => rfl) fun _ => .inl rfl
  · exact h.of_sameRegs (.refl s) rfl h.rstQuiet fun _ => .inr (hc.resolve_left (by simp))

/-- A fall of `out_ready` keeps the invariant, whatever the host does after it. -/
theorem lowerOutReady_inv {s : State} (h : s.Inv) (rest : List HostMove) :
    (lowerOutReady { s with moves := rest }).Inv := by
  refine h.of_sameRegs (.refl s) (by simp [State.stream]) (fun hr => ?_) (by simp)
  simp [h.rstQuiet hr]

/-- Settles O32: the registers and the emitted bytes decide the invariant, so each move of the host is a command, which
keeps it by its effect, or leaves both, or resets. -/
theorem stepKeepsInvariant : Obligations.StepKeepsInvariant := by
  intro s t h ht
  rcases step_next_cases ht with ⟨m, rest, hn, hp⟩ | rfl
  · have hidle : m.waits = true → s.inFlight = [] ∧ s.rst = false := fun hw => by
      obtain ⟨hen, -⟩ := nextMove_some hn
      rw [moveEnabled_eq, hw] at hen
      exact (cmdReady_iff s).mp (by simpa using hen)
    cases m with
    | command w =>
      obtain ⟨hq, hrst⟩ := hidle rfl
      exact accept_inv (h.of_moves (rest := rest) fun _ => .inl hq) hq hrst hp
    | read a =>
      obtain ⟨hq, -⟩ := hidle rfl
      cases hp
      exact h.of_sameRegs (.refl s) rfl h.rstQuiet fun _ => .inl hq
    | rst level =>
      cases level with
      | true =>
        cases hp
        exact .of_regsReset (assertRst_regsReset _) rfl
      | false =>
        cases hp
        exact h.of_sameRegs (.refl s) rfl (by simp [setRst]) (h.cut_after hn rfl)
    | outReady level =>
      cases level with
      | true =>
        cases hp
        exact raiseOutReady_inv h rest
      | false =>
        cases hp
        exact lowerOutReady_inv h rest
    | take =>
      cases hp
      exact takeByte_inv (h.of_moves (h.cut_after hn rfl))
  · exact h

/-- Settles O33: the reset state is one with every register at its reset value and nothing in flight. -/
theorem resetMeetsInvariant : Obligations.ResetMeetsInvariant :=
  .of_regsReset ⟨rfl, rfl, rfl, rfl, rfl, rfl, rfl⟩ rfl

end Sys2Proof.Machine
end

section
/-! PROOFS. The register read space and STATUS (10_state R36, R42, R43). -/

namespace Sys2Proof.Machine

/-- `n` entries of the computed table (40_crc R121), from entry `start` on. -/
def tableSlice (start n : Nat) : List Word := (List.range' start n).map fun k => table (BitVec.ofNat 8 k)

/-- Adjacent slices make up one. -/
theorem tableSlice_append (start m n : Nat) :
    tableSlice start m ++ tableSlice (start + m) n = tableSlice start (m + n) := by
  rw [tableSlice, tableSlice, ← List.map_append, List.range'_append_1, tableSlice]

theorem tableRows0_eq : tableRows0 = tableSlice 0 64 := by decide
theorem tableRows1_eq : tableRows1 = tableSlice 64 64 := by decide
theorem tableRows2_eq : tableRows2 = tableSlice 128 64 := by decide
theorem tableRows3_eq : tableRows3 = tableSlice 192 64 := by decide

/-- The printed table (40_crc R123) is the computed one (R121), in order. -/
theorem referenceTable_eq : referenceTable = tableSlice 0 256 := by
  rw [referenceTable, tableRows0_eq, tableRows1_eq, tableRows2_eq, tableRows3_eq]
  rw [tableSlice_append 0 64, tableSlice_append 0 128, tableSlice_append 0 192]

/-- An entry of the printed table is the computed one. -/
theorem referenceTable_getElem? {n : Nat} (h : n < 256) : referenceTable[n]? = some (table (BitVec.ofNat 8 n)) := by
  simp [referenceTable_eq, tableSlice, h]

/-- A read above the registers' addresses is of the table, or of a reserved address (10_state R42, R43). -/
theorem readReg_above (s : State) {a : RegAddr} (h : 0x006 ≤ a.toNat) :
    readReg s a =
      if 0x100 ≤ a.toNat ∧ a.toNat ≤ 0x1FF then table (BitVec.ofNat 8 (a.toNat - 0x100)) else 0 := by
  have ne_of_low : ∀ k : RegAddr, k.toNat < 0x006 → a ≠ k := fun k hk e => by rw [e] at h; omega
  have hrange : (0x100 ≤ a ∧ a ≤ 0x1FF) ↔ (0x100 ≤ a.toNat ∧ a.toNat ≤ 0x1FF) := by simp [BitVec.le_def]
  rw [readReg, if_neg (ne_of_low 0x000 (by decide)), if_neg (ne_of_low 0x001 (by decide)),
    if_neg (ne_of_low 0x002 (by decide)), if_neg (ne_of_low 0x003 (by decide)), if_neg (ne_of_low 0x004 (by decide)),
    if_neg (ne_of_low 0x005 (by decide))]
  simp only [hrange]
  split
  next hr =>
    have hindex : (a - 0x100).setWidth 8 = BitVec.ofNat 8 (a.toNat - 0x100) := by bv_omega
    rw [hindex]
  next => rfl

/-- Settles O27: the six registers by their addresses, every other address by `readReg_above`. -/
theorem readMap : Obligations.ReadMap := by
  refine fun s => ⟨rfl, rfl, rfl, rfl, rfl, rfl, fun a => ⟨fun ⟨hlo, hhi⟩ => ?_, fun ⟨hlo, hhi⟩ => ?_, fun hlo => ?_⟩⟩
  · rw [readReg_above s hlo, if_neg (by omega)]
  · rw [readReg_above s (by omega), if_pos ⟨hlo, hhi⟩, referenceTable_getElem? (by omega)]
  · rw [readReg_above s (by omega), if_neg (by omega)]

/-- The fields of STATUS are where 10_state R36 puts them, and its other bits are 0: bit by bit, since each bit of the
three shifted fields falls to one of them or to none. -/
theorem statusView_fields (s : State) :
    (statusView s).extractLsb' 0 2 = phaseCode s.phase ∧ (statusView s).extractLsb' 2 2 = 0 ∧
      (statusView s).extractLsb' 4 4 = s.errcode ∧ (statusView s).extractLsb' 8 8 = s.erropc ∧
      (statusView s).extractLsb' 16 16 = 0 := by
  unfold statusView
  generalize phaseCode s.phase = p
  refine ⟨?_, ?_, ?_, ?_, ?_⟩ <;>
    (apply BitVec.eq_of_getLsbD_eq; intro i hi; interval_cases i <;> simp)

/-- The code 3 is ERROR's alone (10_state R33). -/
theorem phaseCode_eq_three_iff (p : Phase) : phaseCode p = 3 ↔ p = .error := by
  cases p <;> decide

/-- Settles O28: a read of 0x000 is STATUS, and `err` tests the STATE whose code is 3. -/
theorem statusFields : Obligations.StatusFields := by
  refine ⟨fun s => ?_, rfl, rfl, rfl, rfl⟩
  obtain ⟨hphase, hlow, herr, hopc, hhigh⟩ := statusView_fields s
  refine ⟨hphase, hlow, herr, hopc, hhigh, ?_⟩
  change errView s = true ↔ (statusView s).extractLsb' 0 2 = 3
  rw [hphase, phaseCode_eq_three_iff]
  simp [errView]

end Sys2Proof.Machine
end

section
/-! PROOFS. Who writes what: the registers' writers, OUT, and what a step does while CRCF is not ready (10_state R22
to R28). -/

namespace Sys2Proof.Machine

/-- A step of a CRCF that is not ready is a pin move, or none. -/
theorem waits_of_not_ready {s : State} {m : HostMove} {rest : List HostMove} (h : ¬s.Ready)
    (hn : nextMove (cmdReady s) s.moves = some (m, rest)) : m.waits = false := by
  obtain ⟨hen, -⟩ := nextMove_some hn
  simpa [moveEnabled_eq, cmdReady_of_not_ready h] using hen

/-- A command changes only the registers that R28's table lists it for, or it raised an error. -/
theorem exec_writers {i : Instr} {s t : State} (h : exec i s = .next t) :
    (t.acc ≠ s.acc → i.mnemonic ∈ ["CRC_INIT", "CRC_BYTE", "FRM_TYPE", "FRM_BYTE", "SRST"]) ∧
    (t.len ≠ s.len → i.mnemonic ∈ ["FRM_LEN", "SRST"]) ∧
    (t.count ≠ s.count → i.mnemonic ∈ ["FRM_TYPE", "FRM_BYTE", "SRST"]) ∧
    (t.type ≠ s.type → i.mnemonic ∈ ["FRM_TYPE", "SRST"]) ∧
    (t.phase ≠ s.phase → i.mnemonic ∈ ["FRM_LEN", "FRM_TYPE", "FRM_BYTE", "SRST"] ∨ t.phase = .error) ∧
    (t.errcode ≠ s.errcode → i.mnemonic = "SRST" ∨ t.phase = .error) ∧
    (t.erropc ≠ s.erropc → i.mnemonic = "SRST" ∨ t.phase = .error) := by
  rcases exec_cases i s with ⟨-, he⟩ | ⟨-, e, he⟩ | ⟨-, -, he⟩ <;> cases he.symm.trans h
  · simp
  · simp
  · cases i with
    | crcInit rsv => simp [commandEffect, Instr.mnemonic]
    | crcByte rsv b => simp [commandEffect, Instr.mnemonic]
    | frmLen rsv l => simp [commandEffect, frmLenEffect_eq, Instr.mnemonic]
    | frmType rsv ty =>
      obtain ⟨hlen, herr, hopc, -, -⟩ := frmTypeEffect_frame ty s
      simp [commandEffect, Instr.mnemonic, hlen, herr, hopc]
    | frmByte rsv b =>
      obtain ⟨hlen, htype, herr, hopc, -, -⟩ := frmByteEffect_frame b s
      simp [commandEffect, Instr.mnemonic, hlen, htype, herr, hopc]
    | srst rsv => simp [Instr.mnemonic]

/-- Settles O31: the writers of a command, of a word of an illegal OPC, and of the other moves of the host. -/
theorem onlyTheListedWritersWrite : Obligations.OnlyTheListedWritersWrite := by
  refine ⟨fun i s t => exec_writers, fun w opc s t hw ht => ?_, fun s t ht hregs => ?_⟩
  · cases (runWord_illegal hw s).symm.trans ht
    rcases illegalWord_cases opc s with ⟨-, h⟩ | ⟨-, h⟩
    · exact .inl h
    · exact .inr h
  · rcases step_next_cases ht with ⟨m, rest, hn, hp⟩ | rfl
    · refine ⟨m, rest, hn, ?_⟩
      have pin : m.waits = false → m = .rst true := fun hm => by
        obtain ⟨u, hu, -, -, -, hregs' | ⟨hm', -⟩⟩ := perform_pin hm { s with moves := rest }
        · cases hu.symm.trans hp
          exact absurd hregs' hregs
        · exact hm'
      cases m with
      | command w => exact .inr ⟨w, rfl⟩
      | read a =>
        cases hp
        exact absurd (.refl s) hregs
      | rst level => exact .inl (pin rfl)
      | outReady level => exact .inl (pin rfl)
      | take => exact .inl (pin rfl)
    · exact absurd (.refl t) hregs

/-- Settles O34: every move of the host, and every command, only appends to OUT. -/
theorem outIsAppendOnly : Obligations.OutIsAppendOnly := by
  refine ⟨fun s t ht => ?_, fun i s t ht => ?_, fun b s => rfl⟩
  · rcases step_next_cases ht with ⟨m, rest, -, hp⟩ | rfl
    · exact perform_out_prefix (s := { s with moves := rest }) hp
    · exact List.prefix_rfl
  · obtain ⟨u, hu, hout, -⟩ := exec_appends i s
    cases hu.symm.trans ht
    exact hout

/-- Settles O47: a CRCF that is not ready lets pin moves take place only. -/
theorem nothingIsAcceptedMidCommand : Obligations.NothingIsAcceptedMidCommand := by
  intro s t hs ht
  rcases step_next_cases ht with ⟨m, rest, hn, hp⟩ | rfl
  · obtain ⟨u, hu, hindex, hanswers, -, hregs⟩ := perform_pin (waits_of_not_ready hs hn) { s with moves := rest }
    cases hu.symm.trans hp
    exact ⟨hindex, hanswers, hregs.imp_right fun ⟨_, hreset, hrst⟩ => ⟨hreset, hrst⟩⟩
  · exact ⟨rfl, rfl, .inl (.refl t)⟩

/-- Settles O53: `out_ready` falls in the next step, and `lowerOutReady_prefix` says what has gone out. -/
theorem fallingOutReadyKeepsTheRest : Obligations.FallingOutReadyKeepsTheRest := by
  intro s rest hm
  obtain ⟨j, hj, hlow, he⟩ := lowerOutReady_prefix { s with moves := rest }
  have hs : step s = .next (lowerOutReady { s with moves := rest }) := step_pin rfl hm
  rw [he] at hs
  exact ⟨_, j, hs, hj, hlow, rfl, rfl, rfl, .refl s, rfl, rfl, rfl, rfl⟩

/-- Settles O29: with CRCF ready the read is the next step. -/
theorem readHasNoSideEffect : Obligations.ReadHasNoSideEffect := by
  rintro s a rest ⟨hq, hrst⟩ hm
  exact step_read s a rest hm hq hrst

/-- Settles O30: the reset state by its definition, SRST by its effect, `rst` by its assertion in the next step. -/
theorem resetValues : Obligations.ResetValues := by
  refine ⟨by decide, fun s => ?_, fun s rest hm => ?_⟩
  · exact ⟨resetRegs s, rfl, ⟨rfl, rfl, rfl, rfl, rfl, rfl, rfl⟩, rfl, rfl⟩
  · refine ⟨_, step_pin rfl hm, assertRst_regsReset _, rfl, List.prefix_append _ _, fun hq => ?_⟩
    simp [setRst, hq]

/-- Settles O48: a take and a rise of `out_ready` are pin moves, so each is the next step. -/
theorem consumerTakesBytesInOrder : Obligations.ConsumerTakesBytesInOrder := by
  refine fun s rest => ⟨fun b bs hq hm => ?_, fun hm => ?_⟩
  · rw [step_pin rfl hm]
    simp [perform, takeByte, hq]
  · have hs : step s = .next (deliver { s with outReady := true, moves := rest }) := step_pin rfl hm
    rw [hs]
    exact ⟨fun hc => by simp [deliver, hc], fun hc => by simp [deliver, hc]⟩

/-- Settles O57: no move can take place, and nothing is in flight that would stall CRCF. -/
theorem idleHoldsItsState : Obligations.IdleHoldsItsState := by
  intro s hm hq
  rcases step_cases s with ⟨m, rest, hn, -⟩ | ⟨-, hs⟩
  · simp [hm, nextMove] at hn
  · rw [hs]
    simp [holdState, outValid, hq]

end Sys2Proof.Machine
end

section
/-! PROOFS. A presented command is run by the next step (10_state R22, R24, R40). -/

namespace Sys2Proof.Machine

/-- Settles O44: the step accepts the word, whose effect is the command's meaning, and offers the bytes it emitted. -/
theorem stepRunsTheDecodedCommand : Obligations.StepRunsTheDecodedCommand := by
  rintro s w i rest ⟨hq, hrst⟩ hm hw
  obtain ⟨t, ht, ⟨bs, hbs⟩, hflight, -, hready, hmoves, hindex, -, -⟩ := exec_appends i { s with moves := rest }
  have hstep : step s = .next (offer { s with moves := rest } t) := by
    rw [step_command s w rest hm hq hrst, accept_eq ((runWord_instr hw _).trans ht)]
  refine ⟨t, bs, ht, hbs.symm, fun ho hc => ?_, fun h => ?_⟩
  · have hquiet : t.inFlight = [] := hflight.trans hq
    rw [hstep, offer_ready _ t bs (hready.trans ho) (hmoves ▸ hc) hbs.symm, ← hquiet, ← hindex]
  · rw [hstep, offer_held _ t bs (by rwa [hready, hmoves]) hbs.symm, ← hindex]

/-- A table word that decodes is the word of the command it decodes to. -/
theorem decodeWord_of_decodeTableWord {nbits n : Nat} {i : Instr} (h : decodeTableWord nbits n = some i) :
    decodeWord (tableWord nbits n) = .instr i := by
  have hd := decode_wordBytes (tableWord nbits n) []
  rw [List.append_nil] at hd
  cases hw : decodeWord (tableWord nbits n) with
  | instr j => simpa [decodeTableWord, hd, hw] using h
  | illegalOpc opc => simp [decodeTableWord, hd, hw] at h

/-- Settles O46: `stepRunsTheDecodedCommand` in the state where the word is presented. -/
theorem presentedWordRunsNext : Obligations.PresentedWordRunsNext := fun s n _ h =>
  stepRunsTheDecodedCommand (s.withFetchWord 64 n) (tableWord 64 n) _ s.moves ⟨rfl, rfl⟩ rfl
    (decodeWord_of_decodeTableWord h)

end Sys2Proof.Machine
end

section
/-! PROOFS. Backpressure (10_state R24, 20_memory R80): a command met by a consumer that is not ready ends, byte by byte,
where its effect leads. -/

namespace Sys2Proof.Machine

/-! ## An effect does not depend on the host's schedule -/

/-- A command's effect is the same whatever moves the host has still to make, and whatever its position is. -/
theorem commandEffect_schedule (i : Instr) (s : State) (ms : List HostMove) (n : Nat) :
    commandEffect i { s with moves := ms, index := n } = { commandEffect i s with moves := ms, index := n } := by
  cases i with
  | crcInit rsv => rfl
  | crcByte rsv b => rfl
  | frmLen rsv l => rfl
  | frmType rsv t =>
    by_cases h : s.len = 0
    · simp only [commandEffect, frmTypeEffect_empty, h]
    · simp only [commandEffect, frmTypeEffect_payload, h, ne_eq, not_false_eq_true]
  | frmByte rsv b =>
    by_cases h : s.count - 1 = 0
    · simp only [commandEffect, frmByteEffect_last, h]
    · simp only [commandEffect, frmByteEffect_more, h, ne_eq, not_false_eq_true]
  | srst rsv => rfl

/-- The checks read the registers only, so they come out the same too. -/
theorem checked_schedule {opc : BitVec 8} {ok : Bool} {wanted : Phase} {e : BlockError} {f : State → State}
    {s t : State} {ms : List HostMove} {n : Nat}
    (hf : f { s with moves := ms, index := n } = { f s with moves := ms, index := n })
    (h : checked opc ok wanted e f s = .next t) :
    checked opc ok wanted e f { s with moves := ms, index := n } = .next { t with moves := ms, index := n } := by
  rcases checked_cases opc ok wanted e f s with ⟨hp, he⟩ | ⟨hp, hok, he⟩ | ⟨hp, hok, hw, he⟩ | ⟨hp, hok, hw, he⟩ <;>
    cases he.symm.trans h
  · simp [checked, hp]
  · simp [checked, hp, hok, raiseError]
  · simp [checked, hp, hok, hw, raiseError]
  · subst hw
    simp [checked, hp, hok, hf]

/-- So a command answers the same, but for the schedule, which it leaves. -/
theorem exec_schedule {i : Instr} {s t : State} (h : exec i s = .next t) (ms : List HostMove) (n : Nat) :
    exec i { s with moves := ms, index := n } = .next { t with moves := ms, index := n } := by
  have hf := commandEffect_schedule i s ms n
  cases i with
  | crcInit rsv => exact checked_schedule hf h
  | crcByte rsv b => exact checked_schedule hf h
  | frmLen rsv l => exact checked_schedule hf h
  | frmType rsv ty => exact checked_schedule hf h
  | frmByte rsv b => exact checked_schedule hf h
  | srst rsv =>
    rcases execSrst_cases rsv s with ⟨hr, he⟩ | ⟨hr, hp, he⟩ | ⟨hr, hp, he⟩ <;> cases he.symm.trans h
    · simp [exec, execSrst, hr, resetRegs]
    · simp [exec, execSrst, (reservedClear_false_iff rsv).mpr hr, hp]
    · simp [exec, execSrst, (reservedClear_false_iff rsv).mpr hr, hp, raiseError]

/-- So does every word. -/
theorem runWord_schedule {w : CmdWord} {s t : State} (h : runWord w s = .next t) (ms : List HostMove) (n : Nat) :
    runWord w { s with moves := ms, index := n } = .next { t with moves := ms, index := n } := by
  cases hw : decodeWord w with
  | instr i =>
    rw [runWord_instr hw] at h ⊢
    exact exec_schedule h ms n
  | illegalOpc opc =>
    rw [runWord_illegal hw] at h ⊢
    cases h
    by_cases hp : s.phase = .error <;> simp [illegalWord, hp, raiseError]

/-! ## Runs -/

@[simp] theorem runSteps_zero (s : State) : runSteps 0 s = .next s := rfl

/-- A machine's run goes on from where its first step leads. -/
theorem coreRun_succ {M : Host.Core} {s t : M.State} (h : M.step s = .next t) (k : Nat) :
    M.run (k + 1) s = M.run k t := by
  simp only [Host.Core.run, h]

/-- So does CRCF's. -/
theorem runSteps_succ {s t : State} (h : step s = .next t) (k : Nat) : runSteps (k + 1) s = runSteps k t :=
  coreRun_succ (M := Sys2Proof.core) h k

/-- The first pin move comes next, past moves that wait, when CRCF is not ready. -/
theorem nextMove_past_waiting {m : HostMove} (hm : m.waits = false) {pre : List HostMove}
    (hpre : ∀ x ∈ pre, x.waits = true) (post : List HostMove) :
    nextMove false (pre ++ m :: post) = some (m, pre ++ post) := by
  induction pre with
  | nil => exact nextMove_pin_cons hm false post
  | cons x xs ih =>
    obtain ⟨hx, hxs⟩ := List.forall_mem_cons.mp hpre
    simp [nextMove, moveEnabled_eq, hx, ih hxs]

/-- The consumer takes a byte in flight in the next step, past the moves that wait for it (10_state R22, R24). -/
theorem step_take_past {s : State} {pre post : List HostMove} {b : Byte} {bs : List Byte}
    (hpre : ∀ x ∈ pre, x.waits = true) (hq : s.inFlight = b :: bs) (hm : s.moves = pre ++ .take :: post) :
    step s = .next { s with moves := pre ++ post, out := s.out ++ [b], inFlight := bs } := by
  have hbusy : cmdReady s = false := by simp [cmdReady, hq]
  simp [step, hostTurn, hbusy, hm, nextMove_past_waiting (m := .take) rfl hpre, perform, takeByte, hq]

/-- One take for each byte in flight puts all of them on OUT, in order, and the waiting moves go on waiting. -/
theorem runSteps_takes {pre rest : List HostMove} (hpre : ∀ x ∈ pre, x.waits = true) {s : State} {bs : List Byte}
    (hq : s.inFlight = bs) (hm : s.moves = pre ++ (List.replicate bs.length .take ++ rest)) :
    runSteps bs.length s = .next { s with moves := pre ++ rest, out := s.out ++ bs, inFlight := [] } := by
  induction bs generalizing s with
  | nil =>
    have hrest : s.moves = pre ++ rest := by simpa using hm
    rw [List.length_nil, runSteps_zero, List.append_nil, ← hq, ← hrest]
  | cons b bs ih =>
    have hstep := step_take_past hpre hq hm
    rw [List.length_cons, runSteps_succ hstep, ih rfl rfl]
    simp

/-- With the consumer not ready, the bytes that an accepted word emits are in flight after its step (10_state R24). -/
theorem step_command_held {s u : State} {w : CmdWord} {ms : List HostMove} {bs : List Byte} (hs : s.Ready)
    (ho : s.outReady = false) (hm : s.moves = .command w :: ms) (hu : runWord w { s with moves := ms } = .next u)
    (hb : u.out = s.out ++ bs) : step s = .next { u with index := s.index + 1, out := s.out, inFlight := bs } := by
  obtain ⟨hq, hrst⟩ := hs
  obtain ⟨t, ht, -, -, -, hready, -, hindex, -⟩ := runWord_appends w { s with moves := ms }
  cases ht.symm.trans hu
  have hoffer := offer_held { s with moves := ms } u bs (.inl (hready.trans ho)) hb
  rw [step_command s w ms hm hq hrst, accept_eq hu, hoffer, hindex]

/-- A word met by a consumer that is not ready, then one take for each byte it emits, past the moves `pre` that wait for
it: the state its effect gives, with the position advanced by 1 (20_memory R75, R80). -/
theorem runSteps_command_takes {s u : State} {w : CmdWord} {k : Nat} {pre rest : List HostMove}
    (hpre : ∀ x ∈ pre, x.waits = true) (hs : s.Ready) (ho : s.outReady = false)
    (hu : runWord w { s with moves := rest } = .next u) (hk : u.out.length = s.out.length + k)
    (hm : s.moves = .command w :: (pre ++ (List.replicate k .take ++ rest))) :
    runSteps (k + 1) s = .next { u with moves := pre ++ rest, index := s.index + 1 } := by
  obtain ⟨t, ht, ⟨bs, hbs⟩, hflight, -⟩ := runWord_appends w { s with moves := rest }
  cases ht.symm.trans hu
  obtain rfl : bs.length = k := by
    rw [← hbs, List.length_append] at hk
    exact Nat.add_left_cancel hk
  have hword := runWord_schedule hu (pre ++ (List.replicate bs.length .take ++ rest)) s.index
  rw [runSteps_succ (step_command_held hs ho hm hword hbs.symm)]
  refine (runSteps_takes (bs := bs) hpre rfl rfl).trans ?_
  have hquiet : u.inFlight = [] := hflight.trans hs.1
  simp only [hbs, hquiet]

/-- Settles O49: `runSteps_command_takes` with no move that waits. -/
theorem backpressureNeverChangesOut : Obligations.BackpressureNeverChangesOut := by
  intro s u w k rest hs ho hu hk hm
  have hmoves : u.moves = rest := by
    obtain ⟨t, ht, -, -, -, -, hmoves, -⟩ := runWord_appends w { s with moves := rest }
    cases ht.symm.trans hu
    exact hmoves
  rw [runSteps_command_takes (pre := []) (by simp) hs ho hu hk hm, List.nil_append, ← hmoves]

end Sys2Proof.Machine
end

section
/-! PROOFS. The encoding (30_encoding R90 to R98, R102): what the decoder reads from each opcode, the word of a command
field by field, the row of a command, and what follows for the effect of a word. -/

namespace Sys2Proof

/-- The six assigned opcodes (30_encoding R95). -/
def assignedOpcodes : List (BitVec 8) :=
  [opcCrcInit, opcCrcByte, opcFrmLen, opcFrmType, opcFrmByte, opcSrst]

/-! ## The decoder, opcode by opcode (30_encoding R93, R96) -/

section
variable {w : CmdWord}

theorem decodeWord_crcInit (h : w.extractLsb' 56 8 = opcCrcInit) :
    decodeWord w = .instr (.crcInit (w.extractLsb' 0 56)) := by
  simp only [decodeWord, h]; rfl

theorem decodeWord_crcByte (h : w.extractLsb' 56 8 = opcCrcByte) :
    decodeWord w = .instr (.crcByte (w.extractLsb' 8 48) (w.extractLsb' 0 8)) := by
  simp only [decodeWord, h]; rfl

theorem decodeWord_frmLen (h : w.extractLsb' 56 8 = opcFrmLen) :
    decodeWord w = .instr (.frmLen (w.extractLsb' 32 24) (w.extractLsb' 0 32)) := by
  simp only [decodeWord, h]; rfl

theorem decodeWord_frmType (h : w.extractLsb' 56 8 = opcFrmType) :
    decodeWord w = .instr (.frmType (w.extractLsb' 32 24) (w.extractLsb' 0 32)) := by
  simp only [decodeWord, h]; rfl

theorem decodeWord_frmByte (h : w.extractLsb' 56 8 = opcFrmByte) :
    decodeWord w = .instr (.frmByte (w.extractLsb' 8 48) (w.extractLsb' 0 8)) := by
  simp only [decodeWord, h]; rfl

theorem decodeWord_srst (h : w.extractLsb' 56 8 = opcSrst) :
    decodeWord w = .instr (.srst (w.extractLsb' 0 56)) := by
  simp only [decodeWord, h]; rfl

theorem decodeWord_illegal (h : w.extractLsb' 56 8 ∉ assignedOpcodes) :
    decodeWord w = .illegalOpc (w.extractLsb' 56 8) := by
  simp only [assignedOpcodes, List.mem_cons, List.not_mem_nil, or_false, not_or] at h
  obtain ⟨h01, h02, h10, h11, h12, hFF⟩ := h
  simp only [decodeWord, if_neg h01, if_neg h02, if_neg h10, if_neg h11, if_neg h12, if_neg hFF]

end

/-! ## Fields of a word -/

/-- The field between the two others. -/
theorem extractLsb'_append_middle {k m n : Nat} (o : BitVec k) (r : BitVec m) (b : BitVec n) :
    (o ++ r ++ b).extractLsb' n m = r := by
  rw [BitVec.extractLsb'_append_eq_of_le le_rfl, Nat.sub_self, BitVec.extractLsb'_append_eq_right]

/-- The fields of form Z make up the word (30_encoding R93). -/
theorem formZ_join (w : CmdWord) : w.extractLsb' 56 8 ++ w.extractLsb' 0 56 = w :=
  (BitVec.extractLsb'_append_extractLsb'_eq_extractLsb' rfl).trans BitVec.extractLsb'_eq_self

/-- The fields of form B make up the word (30_encoding R93). -/
theorem formB_join (w : CmdWord) : w.extractLsb' 56 8 ++ w.extractLsb' 8 48 ++ w.extractLsb' 0 8 = w := by
  rw [BitVec.extractLsb'_append_extractLsb'_eq_extractLsb' (by rfl)]
  exact (BitVec.extractLsb'_append_extractLsb'_eq_extractLsb' rfl).trans BitVec.extractLsb'_eq_self

/-- The fields of forms L and T make up the word (30_encoding R93). -/
theorem formL_join (w : CmdWord) : w.extractLsb' 56 8 ++ w.extractLsb' 32 24 ++ w.extractLsb' 0 32 = w := by
  rw [BitVec.extractLsb'_append_extractLsb'_eq_extractLsb' (by rfl)]
  exact (BitVec.extractLsb'_append_extractLsb'_eq_extractLsb' rfl).trans BitVec.extractLsb'_eq_self

/-- Bits [63:56] of a command's word are its OPC (30_encoding R90, R91). -/
theorem encodeWord_opcode (i : Instr) : (encodeWord i).extractLsb' 56 8 = i.opcode := by
  cases i with
  | crcInit rsv => exact Laws.OpcodeField.crcInit rsv
  | crcByte rsv b => exact Laws.OpcodeField.crcByte rsv b
  | frmLen rsv l => exact Laws.OpcodeField.frmLen rsv l
  | frmType rsv t => exact Laws.OpcodeField.frmType rsv t
  | frmByte rsv b => exact Laws.OpcodeField.frmByte rsv b
  | srst rsv => exact Laws.OpcodeField.srst rsv

/-! ## Decoding and encoding are inverse to each other -/

/-- A command's word decodes to the command, reserved bits and all. -/
theorem decodeWord_encodeWord (i : Instr) : decodeWord (encodeWord i) = .instr i := by
  have hopc := encodeWord_opcode i
  cases i with
  | crcInit rsv =>
    rw [decodeWord_crcInit hopc]
    simp only [encodeWord, BitVec.extractLsb'_append_eq_right]
  | crcByte rsv b =>
    rw [decodeWord_crcByte hopc]
    simp only [encodeWord, BitVec.extractLsb'_append_eq_right, extractLsb'_append_middle]
  | frmLen rsv l =>
    rw [decodeWord_frmLen hopc]
    simp only [encodeWord, BitVec.extractLsb'_append_eq_right, extractLsb'_append_middle]
  | frmType rsv t =>
    rw [decodeWord_frmType hopc]
    simp only [encodeWord, BitVec.extractLsb'_append_eq_right, extractLsb'_append_middle]
  | frmByte rsv b =>
    rw [decodeWord_frmByte hopc]
    simp only [encodeWord, BitVec.extractLsb'_append_eq_right, extractLsb'_append_middle]
  | srst rsv =>
    rw [decodeWord_srst hopc]
    simp only [encodeWord, BitVec.extractLsb'_append_eq_right]

/-- Everything a word can decode to (30_encoding R96): the command whose word it is, or its illegal OPC. -/
theorem decodeWord_cases (w : CmdWord) :
    (∃ i, decodeWord w = .instr i ∧ encodeWord i = w) ∨
    (w.extractLsb' 56 8 ∉ assignedOpcodes ∧ decodeWord w = .illegalOpc (w.extractLsb' 56 8)) := by
  by_cases h : w.extractLsb' 56 8 ∈ assignedOpcodes
  · left
    simp only [assignedOpcodes, List.mem_cons, List.not_mem_nil, or_false] at h
    rcases h with h | h | h | h | h | h
    · exact ⟨_, decodeWord_crcInit h, by rw [encodeWord, ← h, formZ_join]⟩
    · exact ⟨_, decodeWord_crcByte h, by rw [encodeWord, ← h, formB_join]⟩
    · exact ⟨_, decodeWord_frmLen h, by rw [encodeWord, ← h, formL_join]⟩
    · exact ⟨_, decodeWord_frmType h, by rw [encodeWord, ← h, formL_join]⟩
    · exact ⟨_, decodeWord_frmByte h, by rw [encodeWord, ← h, formB_join]⟩
    · exact ⟨_, decodeWord_srst h, by rw [encodeWord, ← h, formZ_join]⟩
  · exact .inr ⟨h, decodeWord_illegal h⟩

/-- A word decodes to its OPC as an illegal one exactly when the OPC is not assigned (30_encoding R97). -/
theorem decodeWord_illegal_iff (w : CmdWord) :
    decodeWord w = .illegalOpc (w.extractLsb' 56 8) ↔ w.extractLsb' 56 8 ∉ assignedOpcodes := by
  refine ⟨fun hw => ?_, decodeWord_illegal⟩
  rcases decodeWord_cases w with ⟨i, hi, -⟩ | ⟨hopc, -⟩
  · cases hi.symm.trans hw
  · exact hopc

/-- Settles O1: the bytes of a command's word decode as the word does, which gives the command back. -/
theorem decodeOfEncodeIsIdentity : Obligations.DecodeOfEncodeIsIdentity := by
  intro i rest
  rw [encode, decode_wordBytes, decodeWord_encodeWord]

/-- Settles O2: of the two things a word can decode to, the command is the one whose word it is. -/
theorem decodedWordReencodes : Obligations.DecodedWordReencodes := by
  intro w i hw
  rcases decodeWord_cases w with ⟨j, hj, he⟩ | ⟨-, hill⟩
  · cases hj.symm.trans hw
    exact he
  · cases hill.symm.trans hw

end Sys2Proof
end

section
/-! PROOFS. The opcode map (30_encoding R95, R98): the row of a command, and that a word selects it and no other. -/

namespace Sys2Proof

/-! ## The table's masks -/

/-- Selecting by the row's mask keeps OPC and clears the rest. -/
theorem and_opcodeMask (w : CmdWord) : w &&& 0xFF00000000000000 = w.extractLsb' 56 8 ++ 0#56 := by
  have hmask : (0xFF00000000000000 : CmdWord) = BitVec.allOnes 8 ++ 0#56 := by decide
  calc w &&& 0xFF00000000000000
      = (w.extractLsb' 56 8 ++ w.extractLsb' 0 56) &&& (BitVec.allOnes 8 ++ 0#56) := by rw [formZ_join, hmask]
    _ = w.extractLsb' 56 8 ++ 0#56 := by rw [BitVec.and_append, BitVec.and_allOnes, BitVec.and_zero]

/-- The mask of a middle field is clear exactly on a middle field of zeros. -/
theorem and_middleMask_eq_zero {k m n : Nat} (o : BitVec k) (r : BitVec m) (b : BitVec n) :
    (o ++ r ++ b) &&& (0#k ++ BitVec.allOnes m ++ 0#n) = 0#k ++ 0#m ++ 0#n ↔ r = 0#m := by
  simp only [BitVec.and_append, BitVec.and_zero, BitVec.and_allOnes, BitVec.append_left_inj, BitVec.append_right_inj]

/-- The mask of a low field is clear exactly on a low field of zeros. -/
theorem and_lowMask_eq_zero {k m : Nat} (o : BitVec k) (r : BitVec m) :
    (o ++ r) &&& (0#k ++ BitVec.allOnes m) = 0#k ++ 0#m ↔ r = 0#m := by
  simp only [BitVec.and_append, BitVec.and_zero, BitVec.and_allOnes, BitVec.append_right_inj]

/-- Every row selects by OPC alone, and by an OPC of its own (30_encoding R95). -/
theorem opcodeTable_match :
    ∀ r ∈ opcodeTable, r.mask = 0xFF00000000000000 ∧ r.matchBits.extractLsb' 56 8 ∈ assignedOpcodes ∧
      ∀ r' ∈ opcodeTable, r.matchBits = r'.matchBits → r = r' := by
  decide

/-- Every bit of RSV must be zero in every row (30_encoding R92, R95). -/
theorem opcodeTable_rsv : ∀ r ∈ opcodeTable, r.mustBeZero.extractLsb' 32 24 = BitVec.allOnes 24 := by
  decide

/-! ## The row a word selects -/

/-- No word is selected by two rows. -/
theorem row_unique {w : CmdWord} {r r' : Row} (hr : r ∈ opcodeTable) (hr' : r' ∈ opcodeTable)
    (h : w &&& r.mask = r.matchBits) (h' : w &&& r'.mask = r'.matchBits) : r = r' := by
  obtain ⟨hmask, -, hinj⟩ := opcodeTable_match r hr
  obtain ⟨hmask', -, -⟩ := opcodeTable_match r' hr'
  refine hinj r' hr' ?_
  rw [← h, ← h', hmask, hmask']

/-- A selected word's OPC is an assigned one. -/
theorem opcode_assigned_of_selected {w : CmdWord} {r : Row} (hr : r ∈ opcodeTable) (h : w &&& r.mask = r.matchBits) :
    w.extractLsb' 56 8 ∈ assignedOpcodes := by
  obtain ⟨hmask, hopc, -⟩ := opcodeTable_match r hr
  rwa [← h, hmask, and_opcodeMask, BitVec.extractLsb'_append_eq_left] at hopc

/-- The row of a command (30_encoding R95). -/
def Instr.row : Instr → Row
  | .crcInit _ => opcodeTable[0]
  | .crcByte _ _ => opcodeTable[1]
  | .frmLen _ _ => opcodeTable[2]
  | .frmType _ _ => opcodeTable[3]
  | .frmByte _ _ => opcodeTable[4]
  | .srst _ => opcodeTable[5]

theorem row_mem_opcodeTable (i : Instr) : i.row ∈ opcodeTable := by
  cases i <;> exact List.getElem_mem _

theorem row_mnemonic (i : Instr) : i.row.mnemonic = i.mnemonic := by
  cases i <;> rfl

theorem row_matchBits (i : Instr) : i.row.matchBits = i.opcode ++ 0#56 := by
  cases i <;> simp only [Instr.row, Instr.opcode] <;> decide

/-- A command's word selects the command's row. -/
theorem encodeWord_selects_row (i : Instr) : encodeWord i &&& i.row.mask = i.row.matchBits := by
  obtain ⟨hmask, -, -⟩ := opcodeTable_match i.row (row_mem_opcodeTable i)
  rw [hmask, and_opcodeMask, encodeWord_opcode, row_matchBits]

/-- A command is well-formed exactly when its word has no must-be-zero bit of its row set (30_encoding R92, R95). -/
theorem wellFormed_iff_mustBeZero (i : Instr) : i.WellFormed = true ↔ encodeWord i &&& i.row.mustBeZero = 0 := by
  cases i with
  | crcInit rsv => exact beq_iff_eq.trans (and_lowMask_eq_zero opcCrcInit rsv).symm
  | crcByte rsv b => exact beq_iff_eq.trans (and_middleMask_eq_zero opcCrcByte rsv b).symm
  | frmLen rsv l => exact beq_iff_eq.trans (and_middleMask_eq_zero opcFrmLen rsv l).symm
  | frmType rsv t => exact beq_iff_eq.trans (and_middleMask_eq_zero opcFrmType rsv t).symm
  | frmByte rsv b => exact beq_iff_eq.trans (and_middleMask_eq_zero opcFrmByte rsv b).symm
  | srst rsv => exact beq_iff_eq.trans (and_lowMask_eq_zero opcSrst rsv).symm

/-- A word that a row selects is the word of a command of that row, and decodes to it. -/
theorem decodeWord_of_selected {w : CmdWord} {r : Row} (hr : r ∈ opcodeTable) (h : w &&& r.mask = r.matchBits) :
    ∃ i, decodeWord w = .instr i ∧ encodeWord i = w ∧ i.row = r := by
  rcases decodeWord_cases w with ⟨i, hi, rfl⟩ | ⟨hopc, -⟩
  · exact ⟨i, hi, rfl, row_unique (row_mem_opcodeTable i) hr (encodeWord_selects_row i) h⟩
  · exact absurd (opcode_assigned_of_selected hr h) hopc

/-- Settles O4: a selected word is the word of a command of its row, a command's word selects the command's row, and the
rows differ in their match bits under one mask. -/
theorem opcodeMapSelectsTheCommand : Obligations.OpcodeMapSelectsTheCommand := by
  refine ⟨rfl, fun w => ⟨fun r hr h => ?_, fun i hi => ?_, fun r hr r' hr' h h' => row_unique hr hr' h h'⟩⟩
  · obtain ⟨i, hi, rfl, rfl⟩ := decodeWord_of_selected hr h
    exact ⟨i, hi, (row_mnemonic i).symm, wellFormed_iff_mustBeZero i⟩
  · cases decodedWordReencodes w i hi
    exact ⟨i.row, row_mem_opcodeTable i, encodeWord_selects_row i⟩

/-- A set bit of RSV is a set must-be-zero bit of every row (30_encoding R92). -/
theorem mustBeZero_of_rsv {w : CmdWord} {r : Row} (hr : r ∈ opcodeTable) (h : w.extractLsb' 32 24 ≠ 0) :
    w &&& r.mustBeZero ≠ 0 := by
  intro hz
  have hfield := congrArg (BitVec.extractLsb' 32 24) hz
  rw [BitVec.extractLsb'_and, opcodeTable_rsv r hr, BitVec.and_allOnes] at hfield
  exact h hfield

end Sys2Proof
end

section
/-! PROOFS. What the encoding says about the effect of a word (30_encoding R96 to R98). -/

namespace Sys2Proof.Machine

/-- A set reserved bit raises E_RESERVED outside ERROR, before any other check (60_exceptions R224). -/
theorem checked_reserved {opc : BitVec 8} {ok : Bool} {wanted : Phase} {e : BlockError} {f : State → State} {s : State}
    (hok : ok = false) (hp : s.phase ≠ .error) :
    checked opc ok wanted e f s = .next (raiseError .reserved opc s) := by
  simp [checked, hok, hp]

/-- So it is for every command, SRST included (30_encoding R98). -/
theorem exec_not_wellFormed {i : Instr} {s : State} (hi : i.WellFormed = false) (hp : s.phase ≠ .error) :
    exec i s = .next (raiseError .reserved i.opcode s) := by
  cases i with
  | crcInit rsv => exact checked_reserved (f := commandEffect (.crcInit rsv)) hi hp
  | crcByte rsv b => exact checked_reserved (f := commandEffect (.crcByte rsv b)) hi hp
  | frmLen rsv l => exact checked_reserved hi hp
  | frmType rsv t => exact checked_reserved hi hp
  | frmByte rsv b => exact checked_reserved hi hp
  | srst rsv =>
    have hrsv : reservedClear rsv = false := hi
    simp [exec, execSrst, hrsv, hp, Instr.opcode]

/-- Settles O5: the selected word is that of a command that is not well-formed; a set bit of RSV is one of the row's
must-be-zero bits. -/
theorem reservedBitsRaiseErrorTwo : Obligations.ReservedBitsRaiseErrorTwo := by
  intro w s r hr h hp
  have reserved : w &&& r.mustBeZero ≠ 0 → runWord w s = .next (s.afterError 2 (w.extractLsb' 56 8)) := fun hz => by
    obtain ⟨i, hi, rfl, rfl⟩ := decodeWord_of_selected hr h
    have hill : i.WellFormed = false := Bool.eq_false_iff.mpr (mt (wellFormed_iff_mustBeZero i).mp hz)
    rw [runWord_instr hi, exec_not_wellFormed hill hp, encodeWord_opcode]
    rfl
  exact ⟨reserved, fun hrsv => reserved (mustBeZero_of_rsv hr hrsv)⟩

/-- Settles O3: by the cases of a word of an illegal OPC. -/
theorem illegalOpcodesRaiseErrorOne : Obligations.IllegalOpcodesRaiseErrorOne := by
  refine ⟨by decide +kernel, fun w => ⟨decodeWord_illegal_iff w, fun s hopc => ?_⟩⟩
  rw [runWord_illegal (decodeWord_illegal hopc)]
  rcases illegalWord_cases (w.extractLsb' 56 8) s with ⟨hp, h⟩ | ⟨hp, h⟩ <;> rw [h]
  · exact ⟨fun hne => absurd hp hne, fun _ => rfl⟩
  · exact ⟨fun _ => rfl, fun he => absurd he hp⟩

/-- Every move of the host answers a next state. -/
theorem perform_next (m : HostMove) (s : State) : ∃ t, perform m s = .next t := by
  have pin : m.waits = false → ∃ t, perform m s = .next t := fun hm => by
    obtain ⟨t, ht, -⟩ := perform_pin hm s
    exact ⟨t, ht⟩
  cases m with
  | command w =>
    obtain ⟨t, ht, -⟩ := runWord_appends w s
    exact ⟨offer s t, accept_eq ht⟩
  | read a => exact ⟨answerRead a s, rfl⟩
  | rst level => exact pin rfl
  | outReady level => exact pin rfl
  | take => exact pin rfl

/-- With no move that can take place, a step stalls or holds the state (60_exceptions R232, 70_reset R270). -/
theorem holdState_cases (s : State) : holdState s = .fault .outputStalled ∨ holdState s = .next s := by
  unfold holdState
  split
  · exact .inl rfl
  · exact .inr rfl

/-- Settles O56: a step performs a move of the host, which answers a next state, or it holds the state or stalls. -/
theorem everyWordHasANextState : Obligations.EveryWordHasANextState := by
  refine ⟨fun s r h => ?_, fun w s => ?_, fun i s => ?_⟩
  · rcases step_cases s with ⟨m, rest, -, hs⟩ | ⟨-, hs⟩
    · obtain ⟨t, ht⟩ := perform_next m { s with moves := rest }
      cases ht.symm.trans (hs.symm.trans h)
    · rcases holdState_cases s with hhold | hhold <;> cases hhold.symm.trans (hs.symm.trans h)
  · obtain ⟨t, ht, -⟩ := runWord_appends w s
    exact ⟨t, ht⟩
  · obtain ⟨t, ht, -⟩ := exec_appends i s
    exact ⟨t, ht⟩

/-- Settles O45: the step accepts the word, which emits no byte. -/
theorem stepOnAnIllegalWord : Obligations.StepOnAnIllegalWord := by
  rintro s w opc rest ⟨hq, hrst⟩ hm hw
  rw [step_command s w rest hm hq hrst, accept_eq (runWord_illegal hw _)]
  rcases illegalWord_cases opc { s with moves := rest } with ⟨hp, h⟩ | ⟨hp, h⟩ <;> rw [h]
  · rw [if_pos hp]
    exact congrArg Host.Outcome.next (offer_silent _ _ rfl hq)
  · rw [if_neg hp]
    exact congrArg Host.Outcome.next (offer_silent _ _ rfl hq)

end Sys2Proof.Machine
end

section
/-! PROOFS. The assembler (30_encoding R101 to R103), and the decoder on words written out. -/

namespace Sys2Proof.Machine

/-- A word with reserved bits 0 is `OPC << 56 | zext_64(operand)` (30_encoding R102). -/
theorem clearRsv_word {m n : Nat} (h : m + n = 56) (o : BitVec 8) (b : BitVec n) :
    (o ++ 0#m ++ b).setWidth 64 = o.setWidth 64 <<< 56 ||| b.setWidth 64 := by
  rw [BitVec.setWidth_append_append_eq_shiftLeft_setWidth_or, h]
  simp

/-- Settles O6: `clearRsv_word` for the four commands with an operand, and the assembler run on the six examples. -/
theorem assembledCommandEncoding : Obligations.AssembledCommandEncoding := by
  have word8 (o b : Byte) : (o ++ 0#48 ++ b : CmdWord) = o.setWidth 64 <<< 56 ||| b.setWidth 64 :=
    (BitVec.setWidth_eq _).symm.trans (clearRsv_word rfl o b)
  have word32 (o : Byte) (v : Word) : (o ++ 0#24 ++ v : CmdWord) = o.setWidth 64 <<< 56 ||| v.setWidth 64 :=
    (BitVec.setWidth_eq _).symm.trans (clearRsv_word rfl o v)
  exact ⟨by decide, word8 opcCrcByte, word32 opcFrmLen, word32 opcFrmType, word8 opcFrmByte, by decide, by decide⟩

/-- Settles O7, by running the decoder. -/
theorem specWordsDecodeToTheirCommands : Obligations.SpecWordsDecodeToTheirCommands := by
  unfold Obligations.SpecWordsDecodeToTheirCommands
  decide

/-- Settles O8, by running the assembler. -/
theorem assemblerExpandsPrograms : Obligations.AssemblerExpandsPrograms := by
  exact ⟨by decide, by decide, by decide, by decide⟩

end Sys2Proof.Machine
end

section
/-! PROOFS. The CRC-32 engine (40_crc R121 to R132). One division step is linear over GF(2) and loses nothing, and the
update is eight of them on `acc ^ zext_32(b)`; linearity, the bit-serial form and the detection of a changed byte
follow. -/

namespace Sys2Proof.Machine

/-! ## Division steps (R121) -/

/-- One division step: the shift, and the XOR with POLY that the bit shifted out decides. -/
theorem divStep_eq (c : Word) : divStep c = (c >>> 1) ^^^ (if c.getLsbD 0 then poly else 0) := by
  unfold divStep
  split
  · exact BitVec.xor_comm _ _
  · exact BitVec.xor_zero.symm

/-- One division step is linear over GF(2). -/
theorem divStep_xor (a b : Word) : divStep (a ^^^ b) = divStep a ^^^ divStep b := by
  have selected : ∀ p q : Bool,
      (if (p ^^ q) then poly else 0) = (if p then poly else 0) ^^^ (if q then poly else 0) := by decide
  rw [divStep_eq, divStep_eq, divStep_eq, BitVec.getLsbD_xor, selected, BitVec.ushiftRight_xor_distrib]
  ac_rfl

/-- So are any number of them. -/
theorem divSteps_xor (n : Nat) (a b : Word) : divSteps n (a ^^^ b) = divSteps n a ^^^ divSteps n b := by
  induction n generalizing a b with
  | zero => rfl
  | succ n ih => rw [divSteps, divStep_xor, ih]; rfl

/-- The bit shifted out can be read off the result: it is its top bit, which POLY sets and the shift clears. -/
theorem divStep_top (c : Word) : (divStep c).getLsbD 31 = c.getLsbD 0 := by
  rw [divStep_eq, BitVec.getLsbD_xor]
  cases c.getLsbD 0 <;> simp [poly]

/-- So one division step loses nothing. -/
theorem divStep_injective : Function.Injective divStep := by
  intro a b h
  have hlow : a.getLsbD 0 = b.getLsbD 0 := by rw [← divStep_top, h, divStep_top]
  have hshift : a >>> 1 = b >>> 1 := by
    rw [divStep_eq, divStep_eq, hlow] at h
    exact (BitVec.xor_left_inj _).mp h
  refine BitVec.eq_of_getLsbD_eq fun i _ => ?_
  cases i with
  | zero => exact hlow
  | succ i => simpa [Nat.add_comm] using congrArg (·.getLsbD i) hshift

/-- Neither do any number of them. -/
theorem divSteps_injective (n : Nat) : Function.Injective (divSteps n) := by
  induction n with
  | zero => exact fun _ _ h => h
  | succ n ih => exact ih.comp divStep_injective

/-- While the bits shifted out are 0, division steps are shifts. -/
theorem divSteps_of_low_zero {n : Nat} {c : Word} (h : ∀ i < n, c.getLsbD i = false) : divSteps n c = c >>> n := by
  induction n generalizing c with
  | zero => exact (BitVec.ushiftRight_zero c).symm
  | succ n ih =>
    have hstep : divStep c = c >>> 1 := by rw [divStep_eq, h 0 n.succ_pos]; exact BitVec.xor_zero
    have hlow : ∀ i < n, (c >>> 1).getLsbD i = false := fun i hi => by
      simpa [Nat.add_comm] using h (i + 1) (Nat.succ_lt_succ hi)
    rw [divSteps, hstep, ih hlow, ← BitVec.shiftRight_add, Nat.add_comm]

/-! ## The update (R122) as eight division steps -/

/-- A word is the XOR of its bits [31:8] and its low byte. -/
theorem high_xor_low (c : Word) : (c >>> 8 <<< 8) ^^^ (c.setWidth 8).setWidth 32 = c := by
  refine BitVec.eq_of_getLsbD_eq fun i hi => ?_
  by_cases h : i < 8
  · simp [h, hi]
  · simp [h, hi, Nat.add_sub_cancel' (Nat.le_of_not_lt h)]

/-- The update divides `acc ^ zext_32(b)` eight times: the table holds what becomes of the low byte, and the other bits
are only shifted. -/
theorem upd_eq_divSteps (acc : Word) (b : Byte) : upd acc b = divSteps 8 (acc ^^^ b.setWidth 32) := by
  set c := acc ^^^ b.setWidth 32 with hc
  have hacc : acc >>> 8 = c >>> 8 := by
    rw [hc, BitVec.ushiftRight_xor_distrib, ← BitVec.setWidth_ushiftRight (by decide),
      BitVec.ushiftRight_eq_zero (x := b) le_rfl]
    simp
  have hhigh : divSteps 8 (c >>> 8 <<< 8) = c >>> 8 := by
    rw [divSteps_of_low_zero fun i hi => by simp [hi]]
    refine BitVec.eq_of_getLsbD_eq fun i hi => ?_
    simpa [hi] using BitVec.lt_of_getLsbD
  calc upd acc b = divSteps 8 ((c.setWidth 8).setWidth 32) ^^^ (c >>> 8) := by rw [← hacc]; rfl
    _ = divSteps 8 ((c >>> 8 <<< 8) ^^^ (c.setWidth 8).setWidth 32) := by
      rw [divSteps_xor, hhigh, BitVec.xor_comm]
    _ = divSteps 8 c := by rw [high_xor_low]

/-! ## The bit-serial form (R126) -/

/-- A bit-serial step is a division step of the accumulator XORed with the bits of `b` still to come. -/
theorem serialStep_xor (b : Byte) (acc : Word) (i : Nat) :
    serialStep b acc i ^^^ (b >>> (i + 1)).setWidth 32 = divStep (acc ^^^ (b >>> i).setWidth 32) := by
  have htest : ∀ x : Word, x &&& 1 = 1 ↔ x.getLsbD 0 = true := fun x => by
    rw [show (1 : Word) = 1#32 from rfl, BitVec.and_one_eq_setWidth_ofBool_getLsbD]
    cases x.getLsbD 0 <;> decide
  have hshift : (b >>> (i + 1)).setWidth 32 = (b >>> i).setWidth 32 >>> 1 := by
    rw [BitVec.shiftRight_add, BitVec.setWidth_ushiftRight (by decide)]
  rw [divStep_eq, serialStep, hshift, BitVec.ushiftRight_xor_distrib]
  simp only [htest]
  ac_rfl

/-- `n` bit-serial steps from bit `i` on are `n` division steps. -/
theorem serialSteps_xor (b : Byte) (acc : Word) (i n : Nat) :
    (List.range' i n).foldl (serialStep b) acc ^^^ (b >>> (i + n)).setWidth 32 =
      divSteps n (acc ^^^ (b >>> i).setWidth 32) := by
  induction n generalizing acc i with
  | zero => rfl
  | succ n ih =>
    rw [List.range'_succ, List.foldl_cons, divSteps, ← serialStep_xor, ← ih, Nat.add_right_comm, Nat.add_assoc]

/-- The bit-serial form is the update. -/
theorem updSerial_eq_upd (acc : Word) (b : Byte) : updSerial acc b = upd acc b := by
  have h := serialSteps_xor b acc 0 8
  rw [Nat.zero_add, BitVec.ushiftRight_eq_zero (x := b) le_rfl, BitVec.ushiftRight_zero] at h
  rw [upd_eq_divSteps, ← h]
  exact BitVec.xor_zero.symm

/-- Settles O12: the statement writes the model's bit-serial form out. -/
theorem bitSerialFormEqualsUpdate : Obligations.BitSerialFormEqualsUpdate := updSerial_eq_upd

/-! ## A changed byte (R131) -/

/-- The accumulator before a byte can be told from the one after it. -/
theorem upd_left_injective (b : Byte) : Function.Injective (upd · b) := by
  intro a a' h
  simp only [upd_eq_divSteps] at h
  exact (BitVec.xor_left_inj _).mp (divSteps_injective 8 h)

/-- So can the byte, where the accumulator before it is known. -/
theorem upd_right_injective (acc : Word) : Function.Injective (upd acc) := by
  intro b b' h
  rw [upd_eq_divSteps, upd_eq_divSteps] at h
  have hzext : b.setWidth 32 = b'.setWidth 32 := (BitVec.xor_right_inj _).mp (divSteps_injective 8 h)
  simpa using congrArg (BitVec.setWidth 8) hzext

/-- A sequence takes different accumulators to different ones. -/
theorem updAll_left_injective (s : List Byte) : Function.Injective (updAll · s) := by
  induction s with
  | nil => exact fun _ _ h => h
  | cons b s ih => exact ih.comp (upd_left_injective b)

/-- Settles O13: the byte makes the accumulators differ, and nothing after it makes them equal again. -/
theorem singleByteChangeChangesCrc : Obligations.SingleByteChangeChangesCrc := by
  intro pre post b b' hb h
  simp only [crc32_eq, crcFinal, updAll_append, updAll_cons] at h
  exact hb (upd_right_injective _ (updAll_left_injective post ((BitVec.xor_left_inj _).mp h)))

/-! ## Linearity (R132) -/

/-- The update is linear over GF(2) in accumulator and byte together. -/
theorem upd_xor (a a' : Word) (b b' : Byte) : upd a b ^^^ upd a' b' = upd (a ^^^ a') (b ^^^ b') := by
  simp only [upd_eq_divSteps, ← divSteps_xor, BitVec.setWidth_xor]
  ac_rfl

/-- So is the update by sequences of equal length. -/
theorem updAll_xor {s t : List Byte} (h : s.length = t.length) (a a' : Word) :
    updAll a s ^^^ updAll a' t = updAll (a ^^^ a') (List.zipWith (· ^^^ ·) s t) := by
  induction s generalizing t a a' with
  | nil =>
    obtain rfl := List.length_eq_zero_iff.mp h.symm
    rfl
  | cons b s ih =>
    cases t with
    | nil => cases h
    | cons b' t =>
      rw [List.zipWith_cons_cons, updAll_cons, updAll_cons, updAll_cons, ih (Nat.succ.inj h), upd_xor]

/-- XOR with an all-zero sequence of the same length changes nothing. -/
theorem zipWith_xor_zeros (s : List Byte) : List.zipWith (· ^^^ ·) s (List.replicate s.length 0) = s := by
  induction s with
  | nil => rfl
  | cons b s ih =>
    rw [List.length_cons, List.replicate_succ, List.zipWith_cons_cons, ih]
    exact congrArg (· :: s) BitVec.xor_zero

/-- Of three final XORs two cancel. -/
theorem crcFinal_xor (x y z : Word) : crcFinal x ^^^ crcFinal y ^^^ crcFinal z = crcFinal (x ^^^ y ^^^ z) := by
  calc crcFinal x ^^^ crcFinal y ^^^ crcFinal z
    _ = x ^^^ y ^^^ z ^^^ xorOut ^^^ (xorOut ^^^ xorOut) := by unfold crcFinal; ac_rfl
    _ = crcFinal (x ^^^ y ^^^ z) := by rw [BitVec.xor_self, BitVec.xor_zero, crcFinal]

/-- Settles O14: of the three initial values and of the three final XORs, two cancel. -/
theorem updateIsLinear : Obligations.UpdateIsLinear := by
  refine ⟨fun a a' s t h => updAll_xor h a a', fun s t h => ?_⟩
  have hz : (List.zipWith (· ^^^ ·) s t).length = s.length := by simp [h]
  have hacc : updAll crcInitValue s ^^^ updAll crcInitValue t ^^^
      updAll crcInitValue (List.replicate s.length 0) =
        updAll crcInitValue (List.zipWith (· ^^^ ·) s t) := by
    rw [updAll_xor h, updAll_xor (by simp [h]), BitVec.xor_self, BitVec.zero_xor, ← hz, zipWith_xor_zeros]
  rw [crc32_eq, crc32_eq, crc32_eq, crc32_eq, crcFinal_xor, hacc]

/-! ## The table and the check values (R122, R123, R125) -/

/-- Settles O9: the printed list is a slice of the computed table. -/
theorem tableIsTheListing : Obligations.TableIsTheListing := by
  refine ⟨by simp [referenceTable_eq, tableSlice], fun n => ?_⟩
  rw [referenceTable_getElem? n.isLt, BitVec.ofNat_toNat, BitVec.setWidth_eq]

/-- The low byte of a word, as the index that R122 writes. -/
theorem and_lowByte_toNat (c : Word) : (c &&& 0xFF).toNat = (c.setWidth 8).toNat := by
  rw [BitVec.toNat_and, BitVec.toNat_setWidth]
  exact Nat.and_two_pow_sub_one_eq_mod c.toNat 8

/-- Settles O10: the list's entry by O9, at the index as `and_lowByte_toNat` gives it. -/
theorem updateReadsTheListedTable : Obligations.UpdateReadsTheListedTable := by
  obtain ⟨-, hentry⟩ := tableIsTheListing
  refine ⟨fun acc b => ⟨table ((acc ^^^ b.setWidth 32).setWidth 8), ?_, rfl⟩, updAll_nil, updAll_concat⟩
  rw [and_lowByte_toNat, hentry]

/-- Settles O11, by running the engine. -/
theorem crcCheckValues : Obligations.CrcCheckValues := ⟨by decide, by decide +kernel⟩

end Sys2Proof.Machine
end

section
/-! PROOFS. The standalone CRC commands (40_crc R127 to R129). -/

namespace Sys2Proof.Machine

/-! ## The checks, one by one (60_exceptions R223, R224) -/

section
variable {opc : BitVec 8} {wanted : Phase} {e : BlockError} {f : State → State} {s : State}

/-- In ERROR a checked command is ignored. -/
theorem checked_in_error {ok : Bool} (hp : s.phase = .error) : checked opc ok wanted e f s = .next s := by
  simp [checked, hp]

/-- In another STATE than the one its rule wants, a well-formed command raises its state error. -/
theorem checked_wrong_phase (hp : s.phase ≠ .error) (hw : s.phase ≠ wanted) :
    checked opc true wanted e f s = .next (raiseError e opc s) := by
  simp [checked, hp, hw]

/-- In the STATE its rule wants, a well-formed command has its effect. -/
theorem checked_effect (hp : s.phase ≠ .error) (hw : s.phase = wanted) : checked opc true wanted e f s = .next (f s) := by
  subst hw
  simp [checked, hp]

end

/-- A STATE inside a frame is neither ERROR nor IDLE. -/
theorem phase_in_frame {p : Phase} (h : p = .lenset ∨ p = .payload) : p ≠ .error ∧ p ≠ .idle := by
  rcases h with rfl | rfl <;> decide

/-! ## CRC_INIT and CRC_BYTE (R128, R129) -/

/-- CRC_INIT in IDLE. -/
theorem exec_crcInit_idle {s : State} (hp : s.phase = .idle) :
    exec (.crcInit 0) s = .next { s with acc := crcInitValue } :=
  checked_effect (f := commandEffect (.crcInit 0)) (by simp [hp]) hp

/-- CRC_BYTE in IDLE. -/
theorem exec_crcByte_idle {s : State} (hp : s.phase = .idle) (b : Byte) :
    exec (.crcByte 0 b) s = .next { s with acc := upd s.acc b } :=
  checked_effect (f := commandEffect (.crcByte 0 b)) (by simp [hp]) hp

/-- CRC_RESULT is read at address 0x001 (10_state R37, R42). -/
theorem readReg_crcResult (s : State) : readReg s 0x001 = crcFinal s.acc := rfl

/-- Settles O15, outcome by outcome. -/
theorem crcInitFollowsItsRule : Obligations.CrcInitFollowsItsRule := by
  refine ⟨by decide, fun rsv s => ⟨decodeWord_encodeWord (.crcInit rsv), fun hp => ?_, fun hp hr => ?_, fun hp => ?_,
    fun hp => ⟨exec_crcInit_idle hp, exec_crcInit_idle hp⟩, ?_⟩⟩
  · exact checked_in_error (f := commandEffect (.crcInit rsv)) hp
  · exact exec_not_wellFormed (i := .crcInit rsv) ((reservedClear_false_iff rsv).mpr hr) hp
  · obtain ⟨herr, hidle⟩ := phase_in_frame hp
    exact checked_wrong_phase (f := commandEffect (.crcInit 0)) herr hidle
  · exact (readReg_crcResult _).trans (by decide : crcFinal 0xFFFFFFFF = 0)

/-- Where the byte is the accumulator's low byte, the update is a shift, since entry 0 of the table is 0. -/
theorem upd_lowByte (acc : Word) : upd acc (acc.setWidth 8) = acc >>> 8 := by
  have hindex : (acc ^^^ (acc.setWidth 8).setWidth 32).setWidth 8 = 0#8 := by simp
  have hentry : table 0#8 = 0#32 := by decide
  rw [upd, hindex, hentry, BitVec.zero_xor]

/-- Settles O16, outcome by outcome, then `upd_lowByte` and the values run. -/
theorem crcByteFollowsItsRule : Obligations.CrcByteFollowsItsRule := by
  refine ⟨fun rsv b s => ⟨decodeWord_encodeWord (.crcByte rsv b), fun hp => ?_, fun hp hr => ?_, fun hp => ?_,
    fun hp => exec_crcByte_idle hp b⟩, upd_lowByte, by decide, by decide, by decide, by decide, by decide, fun s => ?_⟩
  · exact checked_in_error (f := commandEffect (.crcByte rsv b)) hp
  · exact exec_not_wellFormed (i := .crcByte rsv b) ((reservedClear_false_iff rsv).mpr hr) hp
  · obtain ⟨herr, hidle⟩ := phase_in_frame hp
    exact checked_wrong_phase (f := commandEffect (.crcByte 0 b)) herr hidle
  · exact (readReg_crcResult _).trans (by decide : crcFinal 0x174841BC = 0xE8B7BE43)

/-- Settles O35: ignored, erring and effective, the command leaves what its rule does not name. -/
theorem crcCommandsFrame : Obligations.CrcCommandsFrame := by
  intro i s t hi h
  rcases exec_cases i s with ⟨-, he⟩ | ⟨hp, e, he⟩ | ⟨-, -, he⟩ <;> cases he.symm.trans h
  · exact ⟨.refl s, rfl, rfl, rfl, rfl, .inl ⟨rfl, rfl, rfl⟩⟩
  · exact ⟨raiseError_outside e i.opcode s, rfl, rfl, rfl, rfl, .inr ⟨hp, rfl, rfl⟩⟩
  · obtain ⟨-, houtside⟩ := commandEffect_appends i s
    cases i with
    | crcInit rsv => exact ⟨houtside, rfl, rfl, rfl, rfl, .inl ⟨rfl, rfl, rfl⟩⟩
    | crcByte rsv b => exact ⟨houtside, rfl, rfl, rfl, rfl, .inl ⟨rfl, rfl, rfl⟩⟩
    | frmLen rsv l => simp [Instr.mnemonic] at hi
    | frmType rsv ty => simp [Instr.mnemonic] at hi
    | frmByte rsv b => simp [Instr.mnemonic] at hi
    | srst rsv => simp [Instr.mnemonic] at hi

/-! ## Streaming (R127) -/

/-- The step in which a presented command that emits no byte is accepted: its effect, with the position advanced,
whatever the consumer does (10_state R22, R40). -/
theorem step_silent {s t : State} {i : Instr} {is : List Instr} {rest : List HostMove} (hs : s.Ready)
    (hm : s.moves = presents (i :: is) ++ rest) (ht : exec i s = .next t) (hout : t.out = s.out) :
    step s = .next { t with moves := presents is ++ rest, index := s.index + 1 } ∧ t.Ready := by
  obtain ⟨hq, hrst⟩ := hs
  obtain ⟨t', ht', -, hflight, hrst', -⟩ := exec_appends i s
  cases ht.symm.trans ht'
  have hword := (runWord_instr (decodeWord_encodeWord i) _).trans (exec_schedule ht (presents is ++ rest) s.index)
  rw [step_command s _ (presents is ++ rest) hm hq hrst, accept_eq hword]
  exact ⟨congrArg Host.Outcome.next (offer_silent _ _ hout (hflight.trans hq)), hflight.trans hq, hrst'.trans hrst⟩

/-- CRC_BYTE over a sequence, in IDLE: one step for each byte. -/
theorem runSteps_crcBytes {s : State} {bs : List Byte} {rest : List HostMove} (hp : s.phase = .idle) (hs : s.Ready)
    (hm : s.moves = presents (bs.map (.crcByte 0)) ++ rest) :
    runSteps bs.length s =
      .next { s with acc := updAll s.acc bs, moves := rest, index := s.index + bs.length } := by
  induction bs generalizing s with
  | nil =>
    obtain rfl : s.moves = rest := hm
    rfl
  | cons b bs ih =>
    obtain ⟨hstep, hready⟩ := step_silent hs hm (exec_crcByte_idle hp b) rfl
    rw [List.length_cons, runSteps_succ hstep, Nat.add_comm bs.length, ← Nat.add_assoc]
    exact ih hp hready rfl

/-- A command that emits no byte and leads to IDLE, then CRC_BYTE over a sequence. -/
theorem runSteps_silent_crcBytes {s t : State} {i : Instr} {bs : List Byte} {rest : List HostMove} (hs : s.Ready)
    (hm : s.moves = presents (i :: bs.map (.crcByte 0)) ++ rest) (ht : exec i s = .next t) (hout : t.out = s.out)
    (hp : t.phase = .idle) :
    runSteps (bs.length + 1) s =
      .next { t with acc := updAll t.acc bs, moves := rest, index := s.index + (bs.length + 1) } := by
  obtain ⟨hstep, hready⟩ := step_silent hs hm ht hout
  rw [runSteps_succ hstep, Nat.add_comm bs.length, ← Nat.add_assoc]
  exact runSteps_crcBytes hp hready rfl

/-- Settles O17: CRC_INIT, SRST and reset each leave IDLE with ACC at INIT, and none of the commands emits a byte. -/
theorem streamingLaw : Obligations.StreamingLaw := by
  refine ⟨fun s bs rest hp hs hm => runSteps_crcBytes hp hs hm, fun s bs rest hp hs hm => ?_, fun s bs rest hs hm => ?_,
    fun bs => ?_, fun _ _ => rfl⟩
  · exact runSteps_silent_crcBytes hs hm (exec_crcInit_idle hp) rfl hp
  · exact ⟨_, runSteps_silent_crcBytes (t := resetRegs s) hs hm rfl rfl rfl, rfl, rfl⟩
  · exact ⟨_, runSteps_crcBytes (rest := []) rfl ⟨rfl, rfl⟩ (List.append_nil _).symm, rfl, rfl⟩

end Sys2Proof.Machine
end

section
/-! PROOFS. The framer's commands one by one (41_framer R150 to R154, R157): their rules, the cells of the state
machine, their frames, and COUNT. -/

namespace Sys2Proof.Machine

/-! ## The commands in the STATE their rule wants (R151 to R154) -/

/-- FRM_LEN in IDLE. -/
theorem exec_frmLen_idle {s : State} (hp : s.phase = .idle) (l : Word) :
    exec (.frmLen 0 l) s = .next { s with len := l, out := s.out ++ be32 l, phase := .lenset } :=
  (checked_effect (f := frmLenEffect l) (by simp [hp]) hp).trans (congrArg _ (frmLenEffect_eq l s))

/-- FRM_TYPE in LENSET. -/
theorem exec_frmType_lenset {s : State} (hp : s.phase = .lenset) (t : Word) :
    exec (.frmType 0 t) s = .next (frmTypeEffect t s) :=
  checked_effect (f := frmTypeEffect t) (by simp [hp]) hp

/-- FRM_BYTE in PAYLOAD. -/
theorem exec_frmByte_payload {s : State} (hp : s.phase = .payload) (b : Byte) :
    exec (.frmByte 0 b) s = .next (frmByteEffect b s) :=
  checked_effect (f := frmByteEffect b) (by simp [hp]) hp

/-- FRM_BYTE in IDLE or LENSET. -/
theorem exec_frmByte_early {s : State} (hp : s.phase = .idle ∨ s.phase = .lenset) (b : Byte) :
    exec (.frmByte 0 b) s = .next (raiseError .byteSeq opcFrmByte s) := by
  refine checked_wrong_phase (f := frmByteEffect b) ?_ ?_ <;> rcases hp with hp | hp <;> simp [hp]

/-- Settles O18, outcome by outcome. -/
theorem frmLenFollowsItsRule : Obligations.FrmLenFollowsItsRule := by
  refine ⟨fun rsv l s => ⟨decodeWord_encodeWord (.frmLen rsv l), fun hp => ?_, fun hp hr => ?_, fun hp => ?_,
    fun hp => exec_frmLen_idle hp l⟩, by decide⟩
  · exact checked_in_error (f := frmLenEffect l) hp
  · exact exec_not_wellFormed (i := .frmLen rsv l) ((reservedClear_false_iff rsv).mpr hr) hp
  · obtain ⟨herr, hidle⟩ := phase_in_frame hp
    exact checked_wrong_phase (f := frmLenEffect l) herr hidle

/-- Settles O19, outcome by outcome; the two effects are `frmTypeEffect_payload` and `frmTypeEffect_empty`. -/
theorem frmTypeFollowsItsRule : Obligations.FrmTypeFollowsItsRule := by
  refine ⟨fun rsv t s => ⟨decodeWord_encodeWord (.frmType rsv t), fun hp => ?_, fun hp hr => ?_, fun hp => ?_,
    fun hp hlen => ?_, fun hp hlen => ?_⟩, by decide +kernel, by decide +kernel, by decide +kernel, by decide +kernel⟩
  · exact checked_in_error (f := frmTypeEffect t) hp
  · exact exec_not_wellFormed (i := .frmType rsv t) ((reservedClear_false_iff rsv).mpr hr) hp
  · refine checked_wrong_phase (f := frmTypeEffect t) ?_ ?_ <;> rcases hp with hp | hp <;> simp [hp]
  · rw [exec_frmType_lenset hp, frmTypeEffect_payload t s hlen]
    rfl
  · rw [exec_frmType_lenset hp, frmTypeEffect_empty t s hlen]
    rfl

/-- Settles O20, outcome by outcome; the two effects are `frmByteEffect_more` and `frmByteEffect_last`. -/
theorem frmByteFollowsItsRule : Obligations.FrmByteFollowsItsRule := by
  refine ⟨fun rsv b s => ⟨decodeWord_encodeWord (.frmByte rsv b), fun hp => ?_, fun hp hr => ?_,
    fun hp => exec_frmByte_early hp b, fun hp hcount => ?_, fun hp hcount => ?_⟩, by decide +kernel⟩
  · exact checked_in_error (f := frmByteEffect b) hp
  · exact exec_not_wellFormed (i := .frmByte rsv b) ((reservedClear_false_iff rsv).mpr hr) hp
  · rw [exec_frmByte_payload hp, frmByteEffect_more b s hcount]
  · rw [exec_frmByte_payload hp, frmByteEffect_last b s hcount, List.append_assoc]
    rfl

/-! ## STATE and COUNT after FRM_TYPE and FRM_BYTE -/

/-- After FRM_TYPE the chunk is complete when no payload byte is declared. -/
theorem frmTypeEffect_phase (t : Word) (s : State) :
    (frmTypeEffect t s).phase = if s.len = 0 then .idle else .payload := by
  by_cases h : s.len = 0
  · rw [frmTypeEffect_empty t s h, if_pos h]
  · rw [frmTypeEffect_payload t s h, if_neg h]

/-- FRM_TYPE sets COUNT to LEN, of an empty payload too. -/
theorem frmTypeEffect_count (t : Word) (s : State) : (frmTypeEffect t s).count = s.len := by
  by_cases h : s.len = 0
  · rw [frmTypeEffect_empty t s h, h]
  · rw [frmTypeEffect_payload t s h]

/-- In PAYLOAD, FRM_BYTE completes the chunk with the last byte owed. -/
theorem frmByteEffect_phase {s : State} (hp : s.phase = .payload) (b : Byte) :
    (frmByteEffect b s).phase = if s.count = 1 then .idle else .payload := by
  by_cases h : s.count = 1
  · rw [frmByteEffect_last b s (sub_eq_zero.mpr h), if_pos h]
  · rw [frmByteEffect_more b s (mt sub_eq_zero.mp h), if_neg h]
    exact hp

/-- FRM_BYTE takes 1 from COUNT, with the last byte too. -/
theorem frmByteEffect_count (b : Byte) (s : State) : (frmByteEffect b s).count = s.count - 1 := by
  by_cases h : s.count - 1 = 0
  · rw [frmByteEffect_last b s h, h]
  · rw [frmByteEffect_more b s h]

/-! ## The state machine (R150) -/

/-- The error a well-formed command raises in a STATE its rule does not want (60_exceptions R221); SRST has none, and
`exec_wellFormed_cases` never asks for it. -/
def stateError : Instr → BlockError
  | .crcInit _ => .crcBusy
  | .crcByte _ _ => .crcBusy
  | .frmLen _ _ => .lenSeq
  | .frmType _ _ => .typeSeq
  | .frmByte _ _ => .byteSeq
  | .srst _ => .reserved

/-- With its reserved bits clear, a checked command has its effect, is ignored in ERROR, or raises its state error. -/
theorem checked_clear_cases (opc : BitVec 8) {wanted : Phase} (hwanted : wanted ≠ .error) (e : BlockError)
    (f : State → State) (s : State) :
    (s.phase = wanted ∧ checked opc true wanted e f s = .next (f s)) ∨
    (s.phase ≠ wanted ∧ s.phase = .error ∧ checked opc true wanted e f s = .next s) ∨
    (s.phase ≠ wanted ∧ s.phase ≠ .error ∧ checked opc true wanted e f s = .next (raiseError e opc s)) := by
  rcases checked_cases opc true wanted e f s with ⟨hp, he⟩ | ⟨-, hok, -⟩ | ⟨hp, -, hw, he⟩ | ⟨-, -, hw, he⟩
  · exact .inr (.inl ⟨fun hw => hwanted (hw.symm.trans hp), hp, he⟩)
  · cases hok
  · exact .inr (.inr ⟨hw, hp, he⟩)
  · exact .inl ⟨hw, he⟩

/-- Everything a well-formed command can do, and in which STATE (60_exceptions R223, R224, steps 1 and 3). -/
theorem exec_wellFormed_cases {i : Instr} (hi : i.WellFormed = true) (s : State) :
    (runsIn i s.phase ∧ exec i s = .next (commandEffect i s)) ∨
    (¬runsIn i s.phase ∧ s.phase = .error ∧ exec i s = .next s) ∨
    (¬runsIn i s.phase ∧ s.phase ≠ .error ∧ exec i s = .next (raiseError (stateError i) i.opcode s)) := by
  cases i with
  | crcInit rsv =>
    obtain rfl := (reservedClear_iff rsv).mp hi
    exact checked_clear_cases opcCrcInit (by decide) .crcBusy (commandEffect (.crcInit 0)) s
  | crcByte rsv b =>
    obtain rfl := (reservedClear_iff rsv).mp hi
    exact checked_clear_cases opcCrcByte (by decide) .crcBusy (commandEffect (.crcByte 0 b)) s
  | frmLen rsv l =>
    obtain rfl := (reservedClear_iff rsv).mp hi
    exact checked_clear_cases opcFrmLen (by decide) .lenSeq (frmLenEffect l) s
  | frmType rsv t =>
    obtain rfl := (reservedClear_iff rsv).mp hi
    exact checked_clear_cases opcFrmType (by decide) .typeSeq (frmTypeEffect t) s
  | frmByte rsv b =>
    obtain rfl := (reservedClear_iff rsv).mp hi
    exact checked_clear_cases opcFrmByte (by decide) .byteSeq (frmByteEffect b) s
  | srst rsv =>
    obtain rfl := (reservedClear_iff rsv).mp hi
    exact .inl ⟨trivial, rfl⟩

/-- The cell of a command in the STATE its rule wants: the STATE its effect leads to, and no error. -/
theorem framerCell_effect {i : Instr} {s : State} (hi : runsIn i s.phase) :
    framerCell s.phase s.len s.count i = ((commandEffect i s).phase, none) := by
  cases i with
  | crcInit rsv =>
    have hp : s.phase = .idle := hi
    simp [framerCell, commandEffect, hp]
  | crcByte rsv b =>
    have hp : s.phase = .idle := hi
    simp [framerCell, commandEffect, hp]
  | frmLen rsv l =>
    have hp : s.phase = .idle := hi
    simp [framerCell, commandEffect, hp, frmLenEffect_eq]
  | frmType rsv t =>
    have hp : s.phase = .lenset := hi
    simp [framerCell, commandEffect, hp, frmTypeEffect_phase]
  | frmByte rsv b =>
    have hp : s.phase = .payload := hi
    simp [framerCell, commandEffect, hp, frmByteEffect_phase]
  | srst rsv => rfl

/-- The other cells: nothing in ERROR, elsewhere the command's state error. -/
theorem framerCell_no_effect {i : Instr} {p : Phase} (hi : ¬runsIn i p) (len count : Word) :
    framerCell p len count i = (.error, if p = .error then none else some (errorCode (stateError i))) := by
  cases i with
  | crcInit _ | crcByte _ _ | frmLen _ _ | frmType _ _ | frmByte _ _ =>
    cases p <;> simp [runsIn] at hi <;> rfl
  | srst _ => exact absurd trivial hi

/-- Settles O21: the three cases of `exec_wellFormed_cases` against the cells. -/
theorem framerStateMachine : Obligations.FramerStateMachine := by
  intro i s hi
  rcases exec_wellFormed_cases hi s with ⟨hr, he⟩ | ⟨hr, hp, he⟩ | ⟨hr, hp, he⟩
  · rw [framerCell_effect hr]
    exact ⟨_, he, rfl, by simp⟩
  · rw [framerCell_no_effect hr, if_pos hp]
    exact ⟨s, he, hp, by simp⟩
  · rw [framerCell_no_effect hr, if_neg hp]
    refine ⟨_, he, rfl, fun c hc => ?_⟩
    cases hc
    rfl

/-! ## Frames -/

/-- Settles O36, by the cases of `exec_cases`; `frmLenEffect_eq` is the one with an effect. -/
theorem frmLenFrame : Obligations.FrmLenFrame := by
  intro rsv l s t h
  rcases exec_cases (.frmLen rsv l) s with ⟨-, he⟩ | ⟨hp, e, he⟩ | ⟨-, -, he⟩ <;> cases he.symm.trans h
  · exact ⟨.refl s, rfl, rfl, rfl, .inl ⟨rfl, rfl, .inr rfl⟩⟩
  · exact ⟨raiseError_outside e opcFrmLen s, rfl, rfl, rfl, .inr ⟨hp, rfl, rfl, rfl⟩⟩
  · obtain ⟨-, houtside⟩ := commandEffect_appends (.frmLen rsv l) s
    refine ⟨houtside, ?_⟩
    simp [commandEffect, frmLenEffect_eq]

/-- Settles O37, by the cases of `exec_cases`; `frmTypeEffect_frame` is the one with an effect. -/
theorem frmTypeFrame : Obligations.FrmTypeFrame := by
  intro rsv ty s t h
  rcases exec_cases (.frmType rsv ty) s with ⟨-, he⟩ | ⟨hp, e, he⟩ | ⟨-, -, he⟩ <;> cases he.symm.trans h
  · exact ⟨.refl s, rfl, .inl ⟨rfl, rfl⟩⟩
  · exact ⟨raiseError_outside e opcFrmType s, rfl, .inr ⟨hp, rfl, rfl, rfl, rfl, rfl⟩⟩
  · obtain ⟨hlen, herr, hopc, -, houtside⟩ := frmTypeEffect_frame ty s
    exact ⟨houtside, hlen, .inl ⟨herr, hopc⟩⟩

/-- Settles O38, by the cases of `exec_cases`; `frmByteEffect_frame` is the one with an effect. -/
theorem frmByteFrame : Obligations.FrmByteFrame := by
  intro rsv b s t h
  rcases exec_cases (.frmByte rsv b) s with ⟨-, he⟩ | ⟨hp, e, he⟩ | ⟨-, -, he⟩ <;> cases he.symm.trans h
  · exact ⟨.refl s, rfl, rfl, .inl ⟨rfl, rfl⟩⟩
  · exact ⟨raiseError_outside e opcFrmByte s, rfl, rfl, .inr ⟨hp, rfl, rfl, rfl, rfl⟩⟩
  · obtain ⟨hlen, htype, herr, hopc, -, houtside⟩ := frmByteEffect_frame b s
    exact ⟨houtside, hlen, htype, .inl ⟨herr, hopc⟩⟩

/-! ## COUNT (R157) -/

/-- A FRM_BYTE that does not end in ERROR takes 1 from COUNT. -/
theorem exec_frmByte_count {i : Instr} {s t : State} (hi : i.mnemonic = "FRM_BYTE") (ht : t.phase ≠ .error)
    (h : exec i s = .next t) : t.count = s.count - 1 := by
  rcases exec_cases i s with ⟨hp, he⟩ | ⟨-, e, he⟩ | ⟨-, -, he⟩ <;> cases he.symm.trans h
  · exact absurd hp ht
  · exact absurd rfl ht
  · cases i with
    | frmByte rsv b => exact frmByteEffect_count b s
    | crcInit _ | crcByte _ _ | frmLen _ _ | frmType _ _ | srst _ => simp [Instr.mnemonic] at hi

/-- The commands that change COUNT. -/
theorem exec_count {i : Instr} {s t : State} (h : exec i s = .next t) :
    t.count = s.count ∨ (i.mnemonic = "FRM_BYTE" ∧ s.phase = .payload ∧ t.phase ≠ .error) ∨
      (i.mnemonic = "FRM_TYPE" ∧ t.count = s.len) ∨ (i.mnemonic = "SRST" ∧ t.count = 0) := by
  rcases exec_cases i s with ⟨-, he⟩ | ⟨-, e, he⟩ | ⟨-, hi, he⟩ <;> cases he.symm.trans h
  · exact .inl rfl
  · exact .inl rfl
  · cases i with
    | crcInit rsv => exact .inl rfl
    | crcByte rsv b => exact .inl rfl
    | frmLen rsv l => exact .inl (by rw [commandEffect, frmLenEffect_eq])
    | frmType rsv ty => exact .inr (.inr (.inl ⟨rfl, frmTypeEffect_count ty s⟩))
    | frmByte rsv b =>
      have hphase : (frmByteEffect b s).phase ≠ .error := by
        rw [frmByteEffect_phase hi]
        split <;> decide
      exact .inr (.inl ⟨rfl, hi, hphase⟩)
    | srst rsv => exact .inr (.inr (.inr ⟨rfl, rfl⟩))

/-- Settles O24: by the commands that change COUNT; the invariant has it at least 1 in PAYLOAD. -/
theorem countNeverWraps : Obligations.CountNeverWraps := by
  intro i s t hinv h
  refine ⟨fun hi hp ht => ?_, (exec_count h).resolve_left⟩
  obtain ⟨hpos, -⟩ := hinv.payloadCount hp
  rw [exec_frmByte_count hi ht h]
  exact ⟨hpos, by bv_omega⟩

end Sys2Proof.Machine
end

section
/-! PROOFS. Lists of commands: their effects one after another, and the run of a CRCF to which the host presents them,
with a consumer that is ready and a host that does not cut the transfer (00_scope R12, 10_state R22). -/

namespace Sys2Proof.Machine

/-! ## Effects -/

@[simp] theorem execAll_nil (s : State) : execAll [] s = .next s := rfl

/-- The rest of the commands run from where the first one leads. -/
theorem execAll_cons {i : Instr} {s t : State} (h : exec i s = .next t) (is : List Instr) :
    execAll (i :: is) s = execAll is t := by
  simp only [execAll, h]

/-- The commands of a second list run from where those of the first lead. -/
theorem execAll_append {is : List Instr} {s t : State} (h : execAll is s = .next t) (js : List Instr) :
    execAll (is ++ js) s = execAll js t := by
  induction is generalizing s with
  | nil =>
    cases h
    rfl
  | cons i is ih =>
    obtain ⟨u, hu, -⟩ := exec_appends i s
    rw [execAll_cons hu] at h
    rw [List.cons_append, execAll_cons hu, ih h]

/-! ## Runs -/

/-- Presented commands never cut a transfer: the first of them waits for it, and after them comes what the host does
next. -/
theorem cutsTransfer_presents {rest : List HostMove} (h : cutsTransfer rest = false) (is : List Instr) :
    cutsTransfer (presents is ++ rest) = false := by
  cases is with
  | nil => exact h
  | cons i is => rfl

/-- The step in which a presented command is accepted, with a ready consumer that is not cut off: its effect, with the
position advanced by 1, and CRCF is ready for the next (10_state R22, R24, R40). -/
theorem step_presented {s t : State} {i : Instr} {rest : List HostMove} (hs : s.Ready) (ho : s.outReady = true)
    (hcut : cutsTransfer rest = false) (ht : exec i s = .next t) (is : List Instr) (n : Nat) :
    step { s with moves := presents (i :: is) ++ rest, index := n } =
      .next { t with moves := presents is ++ rest, index := n + 1 } ∧ t.Ready ∧ t.outReady = true := by
  obtain ⟨t', ht', -, hflight, hrst, hready, -⟩ := exec_appends i s
  cases ht.symm.trans ht'
  obtain ⟨u, bs, hu, -, hstep, -⟩ :=
    stepRunsTheDecodedCommand { s with moves := presents (i :: is) ++ rest, index := n } (encodeWord i) i
      (presents is ++ rest) hs rfl (decodeWord_encodeWord i)
  cases (exec_schedule ht (presents is ++ rest) n).symm.trans hu
  exact ⟨hstep ho (cutsTransfer_presents hcut is), ⟨hflight.trans hs.1, hrst.trans hs.2⟩, hready.trans ho⟩

/-- As many steps as commands are presented lead where their effects lead. -/
theorem runSteps_presents {is : List Instr} {s u : State} {rest : List HostMove} (hs : s.Ready)
    (ho : s.outReady = true) (hcut : cutsTransfer rest = false) (hu : execAll is s = .next u) (n : Nat) :
    runSteps is.length { s with moves := presents is ++ rest, index := n } =
      .next { u with moves := rest, index := n + is.length } := by
  induction is generalizing s n with
  | nil =>
    cases hu
    rfl
  | cons i is ih =>
    obtain ⟨t, ht, -⟩ := exec_appends i s
    obtain ⟨hstep, hready, hout⟩ := step_presented hs ho hcut ht is n
    rw [execAll_cons ht] at hu
    rw [List.length_cons, runSteps_succ hstep, ih hready hout hu (n + 1), Nat.add_comm is.length, Nat.add_assoc]

/-- So the run of `RunsTo` goes where the effects do. -/
theorem runsTo_of_execAll {is : List Instr} {s u : State} (h : execAll is s = .next u) : RunsTo is s u :=
  ⟨h, fun _ hs ho hcut => runSteps_presents hs ho hcut h s.index⟩

end Sys2Proof.Machine
end

section
/-! PROOFS. Chunks (41_framer R155, R156): the payload bytes still owed, the last of them, and bytes beyond it. -/

namespace Sys2Proof.Machine

/-! ## Payload bytes -/

/-- The state after the payload bytes `p`, with the chunk still open (41_framer R153); `execAll_frmBytes_open` ties it
to FRM_BYTE. -/
def State.afterPayload (s : State) (p : List Byte) : State :=
  { s with acc := updAll s.acc p, out := s.out ++ p, count := s.count - BitVec.ofNat 32 p.length }

/-- Fewer payload bytes than are owed leave the chunk open. -/
theorem execAll_frmBytes_open {s : State} (hp : s.phase = .payload) {p : List Byte} (h : p.length < s.count.toNat) :
    execAll (p.map (.frmByte 0)) s = .next (s.afterPayload p) := by
  induction p generalizing s with
  | nil => simp [State.afterPayload]
  | cons b p ih =>
    rw [List.length_cons] at h
    have hmore : s.count - 1 ≠ 0 := fun h0 => by bv_omega
    have hlen : p.length < (s.count - 1).toNat := by bv_omega
    have hcount : s.count - 1 - BitVec.ofNat 32 p.length = s.count - BitVec.ofNat 32 (p.length + 1) := by bv_omega
    have hb : exec (.frmByte 0 b) s =
        .next { s with acc := upd s.acc b, out := s.out ++ [b], count := s.count - 1 } := by
      rw [exec_frmByte_payload hp, frmByteEffect_more b s hmore]
    rw [List.map_cons, execAll_cons hb]
    refine Eq.trans (ih hp hlen) ?_
    simpa [State.afterPayload] using hcount

/-- All the payload bytes that are owed complete the chunk. -/
theorem execAll_frmBytes_complete {s : State} (hp : s.phase = .payload) {p : List Byte} (hne : p ≠ [])
    (h : p.length = s.count.toNat) : execAll (p.map (.frmByte 0)) s = .next (finishChunk (s.afterPayload p)) := by
  obtain ⟨q, b, rfl⟩ := (List.eq_nil_or_concat' p).resolve_left hne
  rw [List.length_append, List.length_singleton] at h
  have hlast : s.count - BitVec.ofNat 32 q.length - 1 = 0 := by bv_omega
  rw [List.map_append, execAll_append (execAll_frmBytes_open hp (by omega)), List.map_singleton,
    execAll_cons (exec_frmByte_payload (s := s.afterPayload q) hp b), execAll_nil, frmByteEffect_last b _ hlast]
  simp [finishChunk_eq, State.afterPayload, updAll_concat]

/-- Payload bytes are ignored in ERROR. -/
theorem execAll_frmBytes_error {s : State} (hp : s.phase = .error) (p : List Byte) :
    execAll (p.map (.frmByte 0)) s = .next s := by
  induction p with
  | nil => rfl
  | cons b p ih =>
    have hb : exec (.frmByte 0 b) s = .next s := checked_in_error (f := frmByteEffect b) hp
    rw [List.map_cons, execAll_cons hb, ih]

/-- The first payload byte in IDLE raises E_BYTE_SEQ, and those after it are ignored. -/
theorem execAll_frmBytes_excess {s : State} (hp : s.phase = .idle) {p : List Byte} (hne : p ≠ []) :
    execAll (p.map (.frmByte 0)) s = .next (raiseError .byteSeq opcFrmByte s) := by
  obtain ⟨b, p, rfl⟩ := List.exists_cons_of_ne_nil hne
  rw [List.map_cons, execAll_cons (exec_frmByte_early (.inl hp) b)]
  exact execAll_frmBytes_error rfl p

/-! ## A whole chunk -/

/-- After the length field and the type, FRM_TYPE's effect is what the payload bytes find. -/
theorem execAll_frmHeader {s : State} (hp : s.phase = .idle) (n t : Word) (is : List Instr) :
    execAll (.frmLen 0 n :: .frmType 0 t :: is) s =
      execAll is (frmTypeEffect t { s with len := n, out := s.out ++ be32 n, phase := .lenset }) := by
  rw [execAll_cons (exec_frmLen_idle hp n), execAll_cons (exec_frmType_lenset rfl t)]

/-- The state after the chunk of type `t` and payload `p`, from a state in IDLE (41_framer R155). -/
def State.afterChunk (s : State) (t : Word) (p : List Byte) : State :=
  { s with
    acc := updAll crcInitValue (bytes4 t ++ p)
    len := BitVec.ofNat 32 p.length
    count := 0
    type := t
    phase := .idle
    out := s.out ++ buildChunk t p }

/-- The commands of a chunk emit `build_chunk`'s bytes and lead back to IDLE. -/
theorem execAll_frmChunk {s : State} (hp : s.phase = .idle) (t : Word) {p : List Byte} (h : p.length < 2 ^ 32) :
    execAll (frmChunk t p) s = .next (s.afterChunk t p) := by
  rw [frmChunk, execAll_frmHeader hp]
  cases p with
  | nil =>
    rw [frmTypeEffect_empty _ _ rfl]
    simp [State.afterChunk, buildChunk]
  | cons b p =>
    have hlen : (BitVec.ofNat 32 (b :: p).length).toNat = (b :: p).length := by
      rw [BitVec.toNat_ofNat, Nat.mod_eq_of_lt h]
    have hne : BitVec.ofNat 32 (b :: p).length ≠ 0 := fun h0 => by
      rw [h0] at hlen
      simp at hlen
    rw [frmTypeEffect_payload _ _ hne, execAll_frmBytes_complete rfl (List.cons_ne_nil b p) hlen.symm]
    simp [finishChunk_eq, State.afterPayload, State.afterChunk, buildChunk, crc32_eq, updAll_append]

/-- Settles O22: `execAll_frmChunk`, and the run that goes with it. -/
theorem chunkLaw : Obligations.ChunkLaw := fun _ t _ hp h => runsTo_of_execAll (execAll_frmChunk hp t h)

/-- Fewer payload bytes than FRM_LEN declared: the chunk is open, with nothing after them on OUT. -/
theorem execAll_frmChunk_open {s : State} (hp : s.phase = .idle) {n : Word} (t : Word) {p : List Byte}
    (h : p.length < n.toNat) :
    execAll (.frmLen 0 n :: .frmType 0 t :: p.map (.frmByte 0)) s =
      .next { s with
        acc := updAll crcInitValue (bytes4 t ++ p)
        len := n
        count := n - BitVec.ofNat 32 p.length
        type := t
        phase := .payload
        out := s.out ++ (be32 n ++ bytes4 t ++ p) } := by
  have hne : n ≠ 0 := fun h0 => by simp [h0] at h
  rw [execAll_frmHeader hp, frmTypeEffect_payload _ _ hne, execAll_frmBytes_open rfl h]
  simp [State.afterPayload, updAll_append]

/-- More payload bytes than FRM_LEN declared: the chunk of the declared ones is complete, the next raises E_BYTE_SEQ. -/
theorem execAll_frmChunk_excess {s : State} (hp : s.phase = .idle) {n : Word} (t : Word) {p : List Byte}
    (h : n.toNat < p.length) :
    execAll (.frmLen 0 n :: .frmType 0 t :: p.map (.frmByte 0)) s =
      .next (raiseError .byteSeq opcFrmByte (s.afterChunk t (p.take n.toNat))) := by
  have hlen : (p.take n.toNat).length = n.toNat := List.length_take_of_le h.le
  have hsplit : .frmLen 0 n :: .frmType 0 t :: p.map (.frmByte 0) =
      frmChunk t (p.take n.toNat) ++ (p.drop n.toNat).map (.frmByte 0) := by
    rw [frmChunk, hlen, BitVec.ofNat_toNat, BitVec.setWidth_eq, List.cons_append, List.cons_append, ← List.map_append,
      List.take_append_drop]
  rw [hsplit, execAll_append (execAll_frmChunk hp t (hlen.trans_lt n.isLt))]
  exact execAll_frmBytes_excess rfl (List.drop_eq_nil_iff.not.mpr h.not_ge)

/-- Settles O23: the payload is shorter than declared, as long, or longer. -/
theorem lengthPrefixEqualsPayloadLength : Obligations.LengthPrefixEqualsPayloadLength := by
  intro s n t p hp
  rcases Nat.lt_trichotomy p.length n.toNat with h | h | h
  · refine ⟨_, runsTo_of_execAll (execAll_frmChunk_open hp t h), fun _ => ⟨rfl, ?_, rfl⟩, fun h' => ?_, fun h' => ?_⟩
    · change (n - BitVec.ofNat 32 p.length).toNat = _
      bv_omega
    · omega
    · omega
  · have hn : n = BitVec.ofNat 32 p.length := by rw [h, BitVec.ofNat_toNat, BitVec.setWidth_eq]
    have hrun : RunsTo (.frmLen 0 n :: .frmType 0 t :: p.map (.frmByte 0)) s (s.afterChunk t p) := by
      rw [hn]
      exact runsTo_of_execAll (execAll_frmChunk hp t (h ▸ n.isLt))
    exact ⟨_, hrun, fun h' => by omega, fun _ => ⟨rfl, rfl⟩, fun h' => by omega⟩
  · refine ⟨_, runsTo_of_execAll (execAll_frmChunk_excess hp t h), fun h' => ?_, fun h' => ?_,
      fun _ => ⟨rfl, rfl, rfl, rfl⟩⟩
    · omega
    · omega

end Sys2Proof.Machine
end

section
/-! PROOFS. The control family (42_control R180, R183): SRST in every form, and a read held until the command in progress
has ended. -/

namespace Sys2Proof.Machine

/-! ## SRST (R180) -/

/-- A malformed SRST is ignored in ERROR, unlike the well-formed one (60_exceptions R223). -/
theorem exec_srst_malformed_in_error {rsv : BitVec 56} {s : State} (hr : rsv ≠ 0) (hp : s.phase = .error) :
    exec (.srst rsv) s = .next s := by
  rcases execSrst_cases rsv s with ⟨hclear, -⟩ | ⟨-, -, he⟩ | ⟨-, hp', -⟩
  · exact absurd hclear hr
  · exact he
  · exact absurd hp hp'

/-- A well-formed SRST resets the registers in every STATE. -/
theorem exec_srst_wellFormed (s : State) : exec (.srst 0) s = .next (resetRegs s) := rfl

/-- STATUS of the reset registers is 0 (10_state R36, R46). -/
theorem statusView_resetRegs (s : State) : statusView (resetRegs s) = 0 := by
  simp [statusView, phaseCode]

/-- Settles O26, outcome by outcome; the reset registers, reset again, are the same. -/
theorem srstFollowsItsRule : Obligations.SrstFollowsItsRule := by
  refine fun rsv s => ⟨decodeWord_encodeWord (.srst rsv), fun hp hr => exec_srst_malformed_in_error hr hp,
    fun hp hr => ?_, exec_srst_wellFormed s, exec_srst_wellFormed (resetRegs s), statusView_resetRegs s, rfl⟩
  exact exec_not_wellFormed (i := .srst rsv) ((reservedClear_false_iff rsv).mpr hr) hp

/-- Settles O39, by the cases of `exec_cases`: ignored, an error, or the register reset. -/
theorem srstFrame : Obligations.SrstFrame := by
  intro rsv s t h
  rcases exec_cases (.srst rsv) s with ⟨-, he⟩ | ⟨-, e, he⟩ | ⟨-, -, he⟩ <;> cases he.symm.trans h
  · exact ⟨.refl s, rfl⟩
  · exact ⟨raiseError_outside e opcSrst s, rfl⟩
  · obtain ⟨-, houtside⟩ := commandEffect_appends (.srst rsv) s
    exact ⟨houtside, rfl⟩

/-! ## Held reads (R183) -/

/-- A machine's run of `m + n` steps is one of `n` steps from where `m` steps lead. -/
theorem coreRun_add {M : Host.Core} {m : Nat} {s t : M.State} (h : M.run m s = .next t) (n : Nat) :
    M.run (m + n) s = M.run n t := by
  induction m generalizing s with
  | zero =>
    cases h
    rw [Nat.zero_add]
  | succ m ih =>
    cases hs : M.step s with
    | next u =>
      rw [coreRun_succ hs] at h
      rw [Nat.add_right_comm, coreRun_succ hs, ih h]
    | fault r => simp [Host.Core.run, hs] at h
    | refused r => simp [Host.Core.run, hs] at h

/-- One step more of CRCF's run. -/
theorem runSteps_concat {k : Nat} {s t u : State} (h : runSteps k s = .next t) (hstep : step t = .next u) :
    runSteps (k + 1) s = .next u := by
  have hlast : runSteps (k + 1) s = runSteps 1 t := coreRun_add (M := Sys2Proof.core) h 1
  rw [hlast, runSteps_succ hstep, runSteps_zero]

/-- Settles O50: the k takes go past the waiting read, and leave CRCF ready to answer it in the step after them, from the
registers of the command's effect. -/
theorem heldReadIsAnsweredAfterTheCommand : Obligations.HeldReadIsAnsweredAfterTheCommand := by
  intro s u w a k rest hs ho hu hk hm
  obtain ⟨t, ht, -, hflight, hrst, -, hmoves, -, hanswers, -⟩ := runWord_appends w { s with moves := rest }
  cases ht.symm.trans hu
  obtain rfl : u.moves = rest := hmoves
  obtain ⟨hq, hlow⟩ := hs
  have htakes : runSteps (k + 1) s = .next { u with moves := .read a :: u.moves, index := s.index + 1 } :=
    runSteps_command_takes (pre := [.read a]) (by simp [HostMove.waits]) ⟨hq, hlow⟩ ho hu hk hm
  have hread : step { u with moves := .read a :: u.moves, index := s.index + 1 } =
      .next (answerRead a { u with index := s.index + 1 }) :=
    step_read { u with moves := .read a :: u.moves, index := s.index + 1 } a u.moves rfl (hflight.trans hq)
      (hrst.trans hlow)
  rw [runSteps_concat htakes hread, ← hanswers]
  rfl

end Sys2Proof.Machine
end

section
/-! PROOFS. The host's side of a PNG (48_host_usage R201 to R209): the three chunks of a whole image, one after another,
and an image the host abandons. -/

namespace Sys2Proof.Machine

/-! ## A whole PNG (R207) -/

/-- A chunk is its payload with 12 bytes around it: length, type and CRC (41_framer R155). -/
@[simp] theorem buildChunk_length (t : Word) (p : List Byte) : (buildChunk t p).length = 12 + p.length := by
  simp only [buildChunk, bytes4, be32, List.length_append, List.length_cons, List.length_nil]
  omega

/-- An IHDR body has 13 bytes (R203). -/
@[simp] theorem ihdrBody_length (w h : Word) : (ihdrBody w h).length = 13 := rfl

/-- SIGNATURE has 8 bytes (R202). -/
@[simp] theorem signature_length : signature.length = 8 := rfl

/-- The pixel width as a number; the 32-bit product is that number's low word (R204). -/
theorem pixelWidth_eq (w : Word) : pixelWidth w = BitVec.ofNat 32 (w.toNat * 8) := by
  rw [BitVec.ofNat_mul, BitVec.ofNat_toNat, BitVec.setWidth_eq]
  rfl

/-- The three chunks: 25 bytes, 12 around the compressed ones, and 12 (R201). -/
theorem pngChunks_length (w h : Word) (z : List Byte) :
    (pngChunks w h z).length = 25 + (12 + z.length) + 12 := by
  simp only [pngChunks, List.length_append, buildChunk_length, ihdrBody_length, List.length_nil]

/-- `frm.iend` is the chunk of type IEND without payload (30_encoding R103). -/
theorem frmIend_eq_frmChunk : frmIend = frmChunk tagIEND [] := rfl

/-- The state after the commands of a whole PNG, from a state in IDLE: its three chunks one after another. -/
def State.afterPng (s : State) (w h : Word) (z : List Byte) : State :=
  ((s.afterChunk tagIHDR (ihdrBody (pixelWidth w) h)).afterChunk tagIDAT z).afterChunk tagIEND []

/-- Each chunk leads back to IDLE, where the next may begin (`execAll_frmChunk`). -/
theorem execAll_pngCommands {s : State} (hp : s.phase = .idle) (w h : Word) {z : List Byte} (hz : z.length < 2 ^ 32) :
    execAll (pngCommands w h z) s = .next (s.afterPng w h z) := by
  have hihdr : execAll (frmIhdr (pixelWidth w) h) s =
      .next (s.afterChunk tagIHDR (ihdrBody (pixelWidth w) h)) :=
    execAll_frmChunk hp tagIHDR (by simp)
  have hidat := execAll_frmChunk (s := s.afterChunk tagIHDR (ihdrBody (pixelWidth w) h)) rfl tagIDAT hz
  rw [pngCommands, List.append_assoc, execAll_append hihdr, execAll_append hidat, frmIend_eq_frmChunk]
  exact execAll_frmChunk rfl tagIEND (by simp)

/-- OUT gains the three chunks. -/
theorem afterPng_out (s : State) (w h : Word) (z : List Byte) :
    (s.afterPng w h z).out = s.out ++ pngChunks w h z := by
  simp only [State.afterPng, State.afterChunk, pngChunks, List.append_assoc]

/-- CRC_RESULT is that of the last chunk, over the type IEND alone. -/
theorem afterPng_crcResult (s : State) (w h : Word) (z : List Byte) :
    readReg (s.afterPng w h z) 0x001 = crc32 (bytes4 tagIEND) := rfl

/-- The CRC field of every IEND chunk (R207). -/
theorem crc32_tagIEND : crc32 (bytes4 tagIEND) = 0xAE426082 := by decide +kernel

/-- Settles O58: the run by `execAll_pngCommands`, and what its last state holds. The bound on the width is not needed:
the IHDR field is the product's low word in either case (`pixelWidth_eq`). -/
theorem pngCommandSequence : Obligations.PngCommandSequence := by
  intro s w h z hp hz _
  have hout := afterPng_out s w h z
  refine ⟨s.afterPng w h z, runsTo_of_execAll (execAll_pngCommands hp w h hz), rfl, rfl,
    (afterPng_crcResult s w h z).trans crc32_tagIEND, ?_, ?_, ?_⟩
  · rw [hout, ← pixelWidth_eq]
    rfl
  · rw [hout, List.length_append, pngChunks_length]
  · rw [hout, List.drop_left, List.length_append, signature_length, pngChunks_length]
    omega

/-- Settles O60, by building the stream, with the engine run for its three CRC fields. -/
theorem pngExampleBytes : Obligations.PngExampleBytes := by
  unfold Obligations.PngExampleBytes
  decide +kernel

/-! ## An abandoned image (R208) -/

/-- Commands only append to OUT (10_state R27). -/
theorem execAll_out_prefix {is : List Instr} {s u : State} (h : execAll is s = .next u) : s.out <+: u.out := by
  induction is generalizing s with
  | nil =>
    cases h
    exact List.prefix_rfl
  | cons i is ih =>
    obtain ⟨t, ht, hprefix, -⟩ := exec_appends i s
    rw [execAll_cons ht] at h
    exact hprefix.trans (ih h)

/-- Discarding the partial stream gives back OUT as it was when the image began. -/
theorem discardPartial_of_prefix {before out : List Byte} (h : before <+: out) :
    discardPartial before.length out = before := (List.prefix_iff_eq_take.mp h).symm

/-- An empty input or a zero width is the first error, whatever the compressor answers. -/
theorem hostPlan_invalidInput {n : Nat} {w : Word} (hin : n = 0 ∨ w = 0) (h : Word) (z : Option (List Byte)) :
    hostPlan n w h z = .error .invalidInput := if_pos hin

/-- With a valid input, a failed compressor is the error. -/
theorem hostPlan_compressionFailure {n : Nat} {w : Word} (hn : n ≠ 0) (hw : w ≠ 0) (h : Word) :
    hostPlan n w h none = .error .compressionFailure := if_neg (not_or.mpr ⟨hn, hw⟩)

/-- After an error, a host that has issued nothing issues nothing. -/
theorem hostReact_commands_of_issued_nil {job : HostJob} (h : job.issued = []) (out : List Byte) (e : HostError) :
    (hostReact job out (.error e)).commands = [] := by
  simp [hostReact, h]

/-- After an error, a host that has issued commands issues SRST alone. -/
theorem hostReact_commands_of_issued_ne_nil {job : HostJob} (h : job.issued ≠ []) (out : List Byte) (e : HostError) :
    (hostReact job out (.error e)).commands = [.srst 0] := by
  simp [hostReact, h, abandonChunk]

/-- SRST runs to the reset registers in every STATE (42_control R180). -/
theorem runsTo_srst (s : State) : RunsTo [.srst 0] s (resetRegs s) :=
  runsTo_of_execAll (execAll_cons (exec_srst_wellFormed s) [])

/-- Settles O59: OUT only grew since the image began, so what the host keeps is what was there, and SRST resets the
registers wherever the issued commands led. -/
theorem hostErrorsAbandonTheImage : Obligations.HostErrorsAbandonTheImage := by
  refine fun n w h z => ⟨fun hin => hostPlan_invalidInput hin h z, ?_, fun e job s u hplan hexec hstart => ?_⟩
  · rintro hn hw rfl
    exact hostPlan_compressionFailure hn hw h
  · rw [hplan]
    refine ⟨rfl, ?_, fun hnone => hostReact_commands_of_issued_nil hnone u.out e, fun hsome => ?_⟩
    · change discardPartial job.start u.out = s.out
      rw [hstart, discardPartial_of_prefix (execAll_out_prefix hexec)]
    · rw [hostReact_commands_of_issued_ne_nil hsome]
      exact ⟨rfl, resetRegs u, runsTo_srst u, ⟨rfl, rfl, rfl, rfl, rfl, rfl, rfl⟩, rfl⟩

end Sys2Proof.Machine
end

section
/-! PROOFS. Errors (60_exceptions R221 to R227): the error a word raises, read off the opcode table, is the one its effect
raises; in ERROR a word is ignored, but for the well-formed SRST. -/

namespace Sys2Proof

/-! ## The row looked up (30_encoding R95, R96) -/

/-- The row looked up for a word is a row of the table that the word selects. -/
theorem rowOf_some {w : CmdWord} {r : Row} (h : rowOf w = some r) : r ∈ opcodeTable ∧ w &&& r.mask = r.matchBits := by
  have hfind : opcodeTable.find? (·.selects w) = some r := h
  have hselects := List.find?_some hfind
  exact ⟨List.mem_of_find?_eq_some hfind, beq_iff_eq.mp hselects⟩

/-- For a command's word the row looked up is the command's row. -/
theorem rowOf_encodeWord (i : Instr) : rowOf (encodeWord i) = some i.row := by
  cases h : rowOf (encodeWord i) with
  | none =>
    have hselects : i.row.selects (encodeWord i) = true := beq_iff_eq.mpr (encodeWord_selects_row i)
    exact absurd hselects (List.find?_eq_none.mp h i.row (row_mem_opcodeTable i))
  | some r =>
    obtain ⟨hr, hw⟩ := rowOf_some h
    rw [row_unique hr (row_mem_opcodeTable i) hw (encodeWord_selects_row i)]

/-- For a word of an illegal OPC there is no row. -/
theorem rowOf_illegal {w : CmdWord} (h : w.extractLsb' 56 8 ∉ assignedOpcodes) : rowOf w = none := by
  cases hrow : rowOf w with
  | none => rfl
  | some r =>
    obtain ⟨hr, hw⟩ := rowOf_some hrow
    exact absurd (opcode_assigned_of_selected hr hw) h

end Sys2Proof

namespace Sys2Proof.Machine

/-! ## The error a word raises (R224) -/

/-- An illegal OPC is the first error of all, whatever the other bits and STATE are (step 1 of R224). -/
theorem wordError_illegal {w : CmdWord} (h : w.extractLsb' 56 8 ∉ assignedOpcodes) (p : Phase) :
    wordError p w = some 1 := by
  simp [wordError, rowOf_illegal h]

/-- A set must-be-zero bit comes before the STATE check (step 2 of R224). -/
theorem wordError_not_wellFormed {i : Instr} (hi : i.WellFormed = false) (p : Phase) :
    wordError p (encodeWord i) = some 2 := by
  have hbits : encodeWord i &&& i.row.mustBeZero ≠ 0 := fun h => by
    rw [(wellFormed_iff_mustBeZero i).mpr h] at hi
    cases hi
  simp only [wordError, rowOf_encodeWord, if_pos hbits]

/-- For a well-formed command only the STATE check is left (step 3 of R224). -/
theorem wordError_wellFormed {i : Instr} (hi : i.WellFormed = true) (p : Phase) :
    wordError p (encodeWord i) = sequenceError i.mnemonic p := by
  have hbits := (wellFormed_iff_mustBeZero i).mp hi
  simp only [wordError, rowOf_encodeWord, hbits, row_mnemonic, ne_eq, not_true_eq_false, if_false]

/-- The STATE check passes where the command's rule has its effect. -/
theorem sequenceError_runsIn {i : Instr} {p : Phase} (h : runsIn i p) : sequenceError i.mnemonic p = none := by
  cases i with
  | srst _ => simp [sequenceError, Instr.mnemonic]
  | crcInit _ | crcByte _ _ | frmLen _ _ | frmType _ _ | frmByte _ _ =>
    obtain rfl : p = _ := h
    simp [sequenceError, Instr.mnemonic]

/-- Elsewhere it raises the command's state error. -/
theorem sequenceError_not_runsIn {i : Instr} {p : Phase} (h : ¬runsIn i p) :
    sequenceError i.mnemonic p = some (errorCode (stateError i)) := by
  cases i with
  | srst _ => exact absurd trivial h
  | crcInit _ | crcByte _ _ | frmLen _ _ | frmType _ _ | frmByte _ _ =>
    have hp : ¬p = _ := h
    simp [sequenceError, Instr.mnemonic, hp, stateError, errorCode]

/-- Everything a word can do outside ERROR: it raises the error that `wordError` names, or there is none, and it is the
word of a well-formed command that has its effect. -/
theorem runWord_outside_error (w : CmdWord) {s : State} (hp : s.phase ≠ .error) :
    (∃ e, wordError s.phase w = some (errorCode e) ∧ runWord w s = .next (raiseError e (w.extractLsb' 56 8) s)) ∨
    (∃ i, encodeWord i = w ∧ i.WellFormed = true ∧ runsIn i s.phase ∧ wordError s.phase w = none ∧
      runWord w s = .next (commandEffect i s)) := by
  rcases decodeWord_cases w with ⟨i, hw, rfl⟩ | ⟨hopc, hw⟩
  · rw [runWord_instr hw, encodeWord_opcode]
    cases hi : i.WellFormed with
    | false => exact .inl ⟨.reserved, wordError_not_wellFormed hi _, exec_not_wellFormed hi hp⟩
    | true =>
      rw [wordError_wellFormed hi]
      rcases exec_wellFormed_cases hi s with ⟨hr, he⟩ | ⟨-, herr, -⟩ | ⟨hr, -, he⟩
      · exact .inr ⟨i, rfl, hi, hr, sequenceError_runsIn hr, he⟩
      · exact absurd herr hp
      · exact .inl ⟨stateError i, sequenceError_not_runsIn hr, he⟩
  · rcases illegalWord_cases (w.extractLsb' 56 8) s with ⟨herr, -⟩ | ⟨-, h⟩
    · exact absurd herr hp
    · exact .inl ⟨.illegalOpc, wordError_illegal hopc _, by rw [runWord_illegal hw, h]⟩

/-- Where its rule has its effect, a command does not lead to ERROR. -/
theorem commandEffect_phase_ne_error {i : Instr} {s : State} (hi : runsIn i s.phase) :
    (commandEffect i s).phase ≠ .error := by
  cases i with
  | crcInit _ | crcByte _ _ =>
    have hp : s.phase = .idle := hi
    simp [commandEffect, hp]
  | frmLen _ l => simp [commandEffect, frmLenEffect_eq]
  | frmType _ t =>
    rw [commandEffect, frmTypeEffect_phase]
    split <;> decide
  | frmByte _ b =>
    rw [commandEffect, frmByteEffect_phase hi]
    split <;> decide
  | srst _ => simp [commandEffect]

/-- No effect but SRST's writes the error registers (10_state R28). -/
theorem commandEffect_error_regs (i : Instr) (s : State) :
    ((commandEffect i s).errcode = s.errcode ∧ (commandEffect i s).erropc = s.erropc) ∨ ∃ rsv, i = .srst rsv := by
  cases i with
  | crcInit _ | crcByte _ _ => exact .inl ⟨rfl, rfl⟩
  | frmLen _ l => exact .inl (by simp [commandEffect, frmLenEffect_eq])
  | frmType _ t =>
    obtain ⟨-, herr, hopc, -, -⟩ := frmTypeEffect_frame t s
    exact .inl ⟨herr, hopc⟩
  | frmByte _ b =>
    obtain ⟨-, -, herr, hopc, -, -⟩ := frmByteEffect_frame b s
    exact .inl ⟨herr, hopc⟩
  | srst rsv => exact .inr ⟨rsv, rfl⟩

/-- The word of the well-formed SRST (42_control R180). -/
theorem encodeWord_srst_wellFormed {rsv : BitVec 56} (h : (Instr.srst rsv).WellFormed = true) :
    encodeWord (.srst rsv) = 0xFF00000000000000 := by
  obtain rfl := (reservedClear_iff rsv).mp h
  decide

/-- Settles O42: of the two outcomes of a word outside ERROR, the first has an error and the second none. -/
theorem errorPrecedence : Obligations.ErrorPrecedence := by
  intro w s hp
  rcases runWord_outside_error w hp with ⟨e, hw, he⟩ | ⟨i, rfl, hi, hr, hw, he⟩ <;> rw [hw, he]
  · refine ⟨fun c hc => ?_, fun hnone => by cases hnone⟩
    cases hc
    rfl
  · refine ⟨fun _ hc => (by cases hc), fun _ => ⟨_, rfl, commandEffect_phase_ne_error hr, ?_⟩⟩
    rcases commandEffect_error_regs i s with hkept | ⟨rsv, rfl⟩
    · exact .inl hkept
    · exact .inr (encodeWord_srst_wellFormed hi)

/-- Settles O40: outside ERROR only the raising of an error leads to ERROR. -/
theorem errorsArePrecise : Obligations.ErrorsArePrecise := by
  intro w s t hp ht hte
  have hlow : errView s = false := beq_eq_false_iff_ne.mpr hp
  rcases runWord_outside_error w hp with ⟨e, -, he⟩ | ⟨i, -, -, hr, -, he⟩ <;> cases he.symm.trans ht
  · obtain ⟨hlo, hhi⟩ := errorCode_range e
    exact ⟨rfl, hlo, hhi, hlow, rfl⟩
  · exact absurd hte (commandEffect_phase_ne_error hr)

/-! ## In ERROR (R223, R227) -/

/-- The one word that has an effect in ERROR is that of the well-formed SRST. -/
theorem encodeWord_of_runsIn_error {i : Instr} (hi : i.WellFormed = true) (hr : runsIn i .error) :
    encodeWord i = 0xFF00000000000000 := by
  cases i with
  | srst rsv => exact encodeWord_srst_wellFormed hi
  | crcInit _ | crcByte _ _ | frmLen _ _ | frmType _ _ | frmByte _ _ => cases hr

/-- Every other word is ignored (R223). -/
theorem runWord_ignored {w : CmdWord} {s : State} (hp : s.phase = .error) (hw : w ≠ 0xFF00000000000000) :
    runWord w s = .next s := by
  rcases decodeWord_cases w with ⟨i, hd, rfl⟩ | ⟨-, hd⟩
  · rw [runWord_instr hd]
    rcases exec_cases i s with ⟨-, he⟩ | ⟨hne, -⟩ | ⟨hi, hr, -⟩
    · exact he
    · exact absurd hp hne
    · exact absurd (encodeWord_of_runsIn_error hi (hp ▸ hr)) hw
  · rw [runWord_illegal hd]
    rcases illegalWord_cases (w.extractLsb' 56 8) s with ⟨-, he⟩ | ⟨hne, -⟩
    · rw [he]
    · exact absurd hp hne

/-- The well-formed SRST, accepted in any STATE, leaves the registers reset (42_control R180). -/
theorem accept_srst (s : State) : ∃ t, accept 0xFF00000000000000 s = .next t ∧ t.RegsReset := by
  have hw : decodeWord 0xFF00000000000000 = .instr (.srst 0) := decodeWord_encodeWord (.srst 0)
  have ht := (runWord_instr hw s).trans (exec_srst_wellFormed s)
  exact ⟨_, accept_eq ht, by simp [State.RegsReset, crcInitValue]⟩

/-- Settles O41: the step accepts the word, which is ignored and emits no byte. -/
theorem errorStateIgnoresWords : Obligations.ErrorStateIgnoresWords := by
  rintro w s rest hp hw ⟨hq, hrst⟩ hm
  have hignored : runWord w { s with moves := rest } = .next { s with moves := rest } := runWord_ignored hp hw
  rw [step_command s w rest hm hq hrst, accept_eq hignored]
  exact congrArg Host.Outcome.next (offer_silent _ _ rfl hq)

/-- A move of the host that leads out of ERROR is an assertion of `rst` or the well-formed SRST (R227). -/
theorem perform_leaves_error {m : HostMove} {s t : State} (hp : s.phase = .error) (h : perform m s = .next t)
    (ht : t.phase ≠ .error) : t.RegsReset ∧ (m = .rst true ∨ m = .command 0xFF00000000000000) := by
  have pin : m.waits = false → t.RegsReset ∧ m = .rst true := fun hm => by
    obtain ⟨u, hu, -, -, -, hregs⟩ := perform_pin hm s
    cases hu.symm.trans h
    rcases hregs with ⟨-, -, -, -, hphase, -, -⟩ | ⟨rfl, hreset, -⟩
    · exact absurd (hphase.trans hp) ht
    · exact ⟨hreset, rfl⟩
  cases m with
  | command w =>
    by_cases hw : w = 0xFF00000000000000
    · subst hw
      obtain ⟨u, hu, hreset⟩ := accept_srst s
      cases hu.symm.trans h
      exact ⟨hreset, .inr rfl⟩
    · cases (accept_eq (runWord_ignored hp hw)).symm.trans h
      rw [offer_phase] at ht
      exact absurd hp ht
  | read a =>
    cases h
    exact absurd hp ht
  | rst level => exact (pin rfl).imp_right .inl
  | outReady level => exact (pin rfl).imp_right .inl
  | take => exact (pin rfl).imp_right .inl

/-- Settles O43: a step out of ERROR is a move of the host that leads out of it; and each of the two ways is the next step
when the host takes it. -/
theorem onlySrstAndRstLeaveError : Obligations.OnlySrstAndRstLeaveError := by
  refine ⟨fun s t hp h ht => ?_, fun s rest _ => ⟨fun ⟨hq, hrst⟩ hm => ?_, fun hm => ?_⟩⟩
  · rcases step_next_cases h with ⟨m, rest, hn, hperform⟩ | rfl
    · obtain ⟨hreset, hm⟩ := perform_leaves_error (s := { s with moves := rest }) hp hperform ht
      refine ⟨hreset, rest, ?_⟩
      rcases hm with rfl | rfl
      · exact .inl hn
      · exact .inr hn
    · exact absurd hp ht
  · rw [step_command s _ rest hm hq hrst]
    exact accept_srst _
  · exact ⟨_, step_pin rfl hm, assertRst_regsReset _⟩

end Sys2Proof.Machine
end

section
/-! PROOFS. Reset and hazards (70_reset_and_hazards R260 to R263, R269, R270): what `rst` does to bytes in flight and to a
waiting command, when CRCF hangs, and what CRC_RESULT reads in a frame. -/

namespace Sys2Proof.Machine

/-! ## CRC_RESULT in a frame (R269) -/

/-- Settles O25: the invariant has ACC at the update by the type and the payload, CRC_RESULT is its final XOR, and FRM_LEN's
frame has ACC in it. -/
theorem crcResultInsideAFrame : Obligations.CrcResultInsideAFrame := by
  refine ⟨fun s hinv hp => ?_, fun rsv l s t ht => ?_⟩
  · obtain ⟨p, hlength, hwire, hacc⟩ := hinv.payloadWire hp
    refine ⟨p, hlength, hwire, ?_⟩
    rw [readReg_crcResult, crc32_eq, hacc]
    rfl
  · obtain ⟨-, hacc, -⟩ := frmLenFrame rsv l s t ht
    exact hacc

/-! ## `rst` (R260 to R263) -/

/-- Of the bytes in flight an assertion of `rst` puts the first j on OUT, for some j (R262). -/
theorem assertRst_out_prefix (s : State) :
    ∃ j, j ≤ s.inFlight.length ∧ (assertRst s).out = s.out ++ s.inFlight.take j :=
  ⟨min (Config.tornBytes s.draws) s.inFlight.length, Nat.min_le_right .., congrArg (s.out ++ ·) List.take_eq_take_min⟩

/-- Settles O51: the assertion is a pin move, so it is the next step. -/
theorem resetTearsAtSomePrefix : Obligations.ResetTearsAtSomePrefix := by
  intro s rest hm
  obtain ⟨j, hj, hout⟩ := assertRst_out_prefix { s with moves := rest }
  refine ⟨assertRst { s with moves := rest }, j, step_pin rfl hm, assertRst_regsReset _, hj, hout, rfl, rfl, rfl, rfl, rfl,
    rfl, fun hq => ?_⟩
  rw [hout, hq, List.take_nil, List.append_nil]

/-- When the host cuts the transfer, the bytes that an accepted word emits are in flight after its step, whatever the
consumer does. -/
theorem step_command_cut {s u : State} {w : CmdWord} {ms : List HostMove} {bs : List Byte} (hs : s.Ready)
    (hm : s.moves = .command w :: ms) (hcut : cutsTransfer ms = true) (hu : runWord w s = .next u)
    (hb : u.out = s.out ++ bs) :
    step s = .next { u with moves := ms, index := s.index + 1, out := s.out, inFlight := bs } := by
  obtain ⟨hq, hrst⟩ := hs
  have hword := runWord_schedule hu ms s.index
  have hoffer := offer_held { s with moves := ms } { u with moves := ms, index := s.index } bs (.inr hcut) hb
  rw [step_command s w ms hm hq hrst, accept_eq hword, hoffer]

/-- Settles O52: the command leaves its bytes in flight, because `rst` cuts their transfer, and `rst` tears them. -/
theorem tornCommandLeavesAPrefix : Obligations.TornCommandLeavesAPrefix := by
  intro s u w rest hs hm hu
  obtain ⟨u', hu', ⟨bs, hbs⟩, -⟩ := runWord_appends w s
  cases hu'.symm.trans hu
  have hcommand := step_command_cut hs hm rfl hu hbs.symm
  obtain ⟨t, j, hreset, hregs, hj, hout, hquiet, -⟩ :=
    resetTearsAtSomePrefix { u with moves := .rst true :: rest, index := s.index + 1, out := s.out, inFlight := bs } rest rfl
  have hrun : runSteps 2 s = .next t := by
    rw [runSteps_succ hcommand, runSteps_succ hreset, runSteps_zero]
  exact ⟨t, bs, j, hbs.symm, hj, hrun, hregs, hout, hquiet⟩

/-- Settles O54: while `rst` is asserted the command waits, and the deassertion is the first move that does not. -/
theorem commandWaitsForResetToEnd : Obligations.CommandWaitsForResetToEnd := by
  intro s w rest _ hrst hm
  have hbusy : cmdReady s = false := by simp [cmdReady, hrst]
  have hnext : nextMove false s.moves = some (.rst false, .command w :: rest) := by
    rw [hm]
    exact nextMove_past_waiting (m := .rst false) (pre := [.command w]) rfl (by simp [HostMove.waits]) rest
  simp [step, hostTurn, hbusy, hnext, perform, setRst]

/-! ## The hang (R270) -/

/-- Holding the state is a fault exactly with bytes in flight, and the fault is the hang. -/
theorem holdState_fault_iff (s : State) (f : Fault) :
    holdState s = .fault f ↔ f = .outputStalled ∧ s.inFlight ≠ [] := by
  by_cases hq : s.inFlight = []
  · simp [holdState, outValid, hq]
  · simp [holdState, outValid, hq]

/-- A step is a fault exactly when no move of the host comes next and holding the state is one: every move answers a next
state. -/
theorem step_fault_iff (s : State) (f : Fault) :
    step s = .fault f ↔ nextMove (cmdReady s) s.moves = none ∧ f = .outputStalled ∧ s.inFlight ≠ [] := by
  rcases step_cases s with ⟨m, rest, hn, hs⟩ | ⟨hn, hs⟩
  · obtain ⟨t, ht⟩ := perform_next m { s with moves := rest }
    simp [hs, ht, hn]
  · simp [hs, hn, holdState_fault_iff]

/-- With bytes in flight no move comes next exactly when none touches a pin. -/
theorem nextMove_busy_none_iff {s : State} (hq : s.inFlight ≠ []) :
    nextMove (cmdReady s) s.moves = none ↔ ∀ m ∈ s.moves, m.waits = true := by
  rw [cmdReady_of_not_ready fun hs => hq hs.1]
  simp [nextMove_none_iff, moveEnabled_eq]

/-- Settles O55: `step_fault_iff`, where bytes in flight make the moves that wait those that cannot come next. -/
theorem hangsExactlyWithoutAConsumer : Obligations.HangsExactlyWithoutAConsumer := by
  refine fun s => ⟨?_, fun f h => ?_⟩
  · rw [step_fault_iff]
    constructor
    · rintro ⟨hn, -, hq⟩
      exact ⟨hq, (nextMove_busy_none_iff hq).mp hn⟩
    · rintro ⟨hq, hwait⟩
      exact ⟨(nextMove_busy_none_iff hq).mpr hwait, rfl, hq⟩
  · obtain ⟨-, hf, -⟩ := (step_fault_iff s f).mp h
    exact hf

end Sys2Proof.Machine
end
